-- ==== Sys2Proof/Word.lean ====
section
/-! DEFINITION. The words of the block: bytes, 16- and 32-bit integer patterns, the 4-byte float buffer.

Bits are numbered 7 (most significant) to 0, `a ++ b` puts `a` in the high bits (spec 00_scope.md R8). -/

namespace Sys2Proof

/-- A byte: a stack cell, the command, the status register (R8, R9). -/
abbrev Byte := BitVec 8

/-- The pattern of a 16-bit integer operand (R6). -/
abbrev Word16 := BitVec 16

/-- The pattern of a 32-bit integer operand (R6). -/
abbrev Word32 := BitVec 32

/-- A 4-byte float buffer in any of the wire formats: `b0` is the byte at the lowest index, pushed
first, `b3` the highest (47_float_format_library.md, opening; R50). -/
structure Wire where
  b0 : Byte
  b1 : Byte
  b2 : Byte
  b3 : Byte
deriving DecidableEq, Repr, Inhabited

/-- The four zero bytes that every format writes for 0.0 (R284: "zero mantissa ⇒ write all-zero bytes"). -/
def Wire.zero : Wire := ⟨0x00, 0x00, 0x00, 0x00⟩

end Sys2Proof
end

