-- ==== Sys2Proof/Config.lean ====
section
/-! DEFINITION. The names the parameters of the block range over, and the parameters the spec leaves
OPEN, each an opaque constant: nothing in Lean can evaluate one or prove a value of it.

The parameters for which the spec decides a value (00_scope.md R7) are definitions of
Machine/Parameters.lean. -/

namespace Sys2Proof

/-- The operand class: "width/kind selector" (R11, R28). -/
inductive OpClass where
  /-- 16-bit integer -/
  | i16
  /-- 32-bit integer -/
  | i32
  /-- 32-bit float -/
  | f32
deriving DecidableEq, Repr, Inhabited

/-- The six mutually exclusive values of the status register's ERROR field (R26). -/
inductive ErrorCode where
  | none | ovf | und | neg | arg | div0
deriving DecidableEq, Repr, Inhabited

/-- The derived functions of one operand (R211). -/
inductive Fn1 where
  | sqrt | sin | cos | tan | asin | acos | atan | log | ln | exp
deriving DecidableEq, Repr, Inhabited

/-- The two values PWR asks of the configuration function: "the product A·ln(B)" and "exp(A·ln B)"
(R211, R222). -/
inductive Fn2 where
  | pwrArg | pwr
deriving DecidableEq, Repr, Inhabited

/-- The three values of `INT_OP_FLOAT_CLASS` (R7, R79, decision D9): what an integer-only opcode under a float
class does. -/
inductive IntOpFloatClass where
  /-- the model gives the byte no meaning -/
  | refuse
  /-- prologue and epilogue only, as for an unknown opcode -/
  | noop
  /-- the 32-bit handler, under the class I32 -/
  | asI32
deriving DecidableEq, Repr, Inhabited

/-- The values of `LOG_ZERO` (R7, decision D17): what LN and LOG of zero, and PWR with base zero, do. -/
inductive LogZeroRule where
  /-- the command has no meaning on these operands: "if b == 0 then refuse" (R220, R222, U11) -/
  | refuse
  /-- the command runs and leaves a free outcome (log entry 6) -/
  | free
deriving DecidableEq, Repr, Inhabited

/-- What stands at the top of the stack after a derived function whose result the spec leaves wholly
open: whether the two operands of PWR are consumed, the four bytes then left as the result, and the
error code. -/
structure OpenOutcome where
  /-- a two-operand command consumes its operands and leaves `result`; otherwise the stack stays -/
  commit : Bool
  result : Wire
  error  : ErrorCode
deriving DecidableEq, Repr, Inhabited

/-- `FRound` (R191, decision D13, log entry 3): of the two integers next to the non-integral
`q`, `2^23 < q < 2^24`, of a result with the given sign, is the upper one taken as the mantissa? -/
opaque Config.roundsUp : (sign : Bool) → (q : Rat) → Bool

/-- `Fn` for one operand (R211, decision D16, log entry 4): total, and dependent on its arguments alone. -/
opaque Config.fn1 : Fn1 → (a : Rat) → Rat

/-- `Fn(PWRARG, b, a)` and `Fn(PWR, b, a)` (R211, R222, decision D16, log entry 4). -/
opaque Config.fn2 : Fn2 → (b a : Rat) → Rat

/-- `DIV_MINNEG_ERR` (R178, decision D12, log entry 5): does the n-th draw set OVF after most
negative / -1, rather than NONE? -/
opaque Config.divMinNegOvf : (draw : Nat) → Bool

/-- `LOG_ZERO` under its value `free` (R219, R220, R222, decision D17, log entry 6): the n-th draw of what LN or LOG of
zero, or PWR with base zero, leaves. -/
opaque Config.logZero : (draw : Nat) → OpenOutcome

/-- The n-th draw of what a derived function leaves when one fold does not bring its result's exponent
into range (R210, U25, log entry 7). Its `error` is not used: the range check names the code (R192). -/
opaque Config.beyondFold : (draw : Nat) → OpenOutcome

end Sys2Proof
end

