-- ==== Sys2Proof/Syntax.lean ====
section
/-! DEFINITION. The commands: one constructor of `Instr` per row of spec/opcode_table.json.

A command is one byte `SR(1) | CLASS(2) | OPCODE(5)` and has no other operand field (30_encoding.md
R70, R73). A constructor carries the bits its row leaves free: `sr` is bit 7 of the byte; `cls`,
where present, is the CLASS field, bits 6:5, with bit 6 first. The `.S` and `.D` rows fix CLASS.

The names of `Opcode` are the families of the 5-bit opcode field (R76). -/

namespace Sys2Proof

/-- The handlers that have an opcode number (R76): the values of the parameter `OPC`'s domain. -/
inductive Opcode where
  | nop
  | sqrt
  | sin
  | cos
  | tan
  | asin
  | acos
  | atan
  | log
  | ln
  | exp
  | pwr
  | add
  | sub
  | mul
  | div
  | fadd
  | fsub
  | fmul
  | fdiv
  | chs
  | chsf
  | muu
  | pto
  | pop
  | xch
  | pupi
  | fltd
  | flts
  | fixd
  | fixs
deriving DecidableEq, Repr, Inhabited

/-- A command byte, read (R70, R74, R77). -/
inductive Instr where
  /-- NOP: class-ignored -/
  | nop (sr : Bool) (cls : BitVec 2)
  /-- SQRT: class-ignored -/
  | sqrt (sr : Bool) (cls : BitVec 2)
  /-- SIN: class-ignored -/
  | sin (sr : Bool) (cls : BitVec 2)
  /-- COS: class-ignored -/
  | cos (sr : Bool) (cls : BitVec 2)
  /-- TAN: class-ignored -/
  | tan (sr : Bool) (cls : BitVec 2)
  /-- ASIN: class-ignored -/
  | asin (sr : Bool) (cls : BitVec 2)
  /-- ACOS: class-ignored -/
  | acos (sr : Bool) (cls : BitVec 2)
  /-- ATAN: class-ignored -/
  | atan (sr : Bool) (cls : BitVec 2)
  /-- LOG: class-ignored -/
  | log (sr : Bool) (cls : BitVec 2)
  /-- LN: class-ignored -/
  | ln (sr : Bool) (cls : BitVec 2)
  /-- EXP: class-ignored -/
  | exp (sr : Bool) (cls : BitVec 2)
  /-- PWR: class-ignored -/
  | pwr (sr : Bool) (cls : BitVec 2)
  /-- ADD.S: CLASS fixed by the row -/
  | addS (sr : Bool)
  /-- ADD.D: CLASS fixed by the row -/
  | addD (sr : Bool)
  /-- ADD.reserved: integer-only opcode under CLASS = 0x: reserved (R79) -/
  | addReserved (sr : Bool) (cls : BitVec 2)
  /-- SUB.S: CLASS fixed by the row -/
  | subS (sr : Bool)
  /-- SUB.D: CLASS fixed by the row -/
  | subD (sr : Bool)
  /-- SUB.reserved: integer-only opcode under CLASS = 0x: reserved (R79) -/
  | subReserved (sr : Bool) (cls : BitVec 2)
  /-- MUL.S: CLASS fixed by the row -/
  | mulS (sr : Bool)
  /-- MUL.D: CLASS fixed by the row -/
  | mulD (sr : Bool)
  /-- MUL.reserved: integer-only opcode under CLASS = 0x: reserved (R79) -/
  | mulReserved (sr : Bool) (cls : BitVec 2)
  /-- DIV.S: CLASS fixed by the row -/
  | divS (sr : Bool)
  /-- DIV.D: CLASS fixed by the row -/
  | divD (sr : Bool)
  /-- DIV.reserved: integer-only opcode under CLASS = 0x: reserved (R79) -/
  | divReserved (sr : Bool) (cls : BitVec 2)
  /-- FADD: class-ignored -/
  | fadd (sr : Bool) (cls : BitVec 2)
  /-- FSUB: class-ignored -/
  | fsub (sr : Bool) (cls : BitVec 2)
  /-- FMUL: class-ignored -/
  | fmul (sr : Bool) (cls : BitVec 2)
  /-- FDIV: class-ignored -/
  | fdiv (sr : Bool) (cls : BitVec 2)
  /-- CHS.S: CLASS fixed by the row -/
  | chsS (sr : Bool)
  /-- CHS.D: CLASS fixed by the row -/
  | chsD (sr : Bool)
  /-- CHS.F: class-selected, CLASS = 0x -/
  | chsF (sr : Bool) (cls : BitVec 2)
  /-- CHSF: class-ignored -/
  | chsf (sr : Bool) (cls : BitVec 2)
  /-- MUU.S: CLASS fixed by the row -/
  | muuS (sr : Bool)
  /-- MUU.D: CLASS fixed by the row -/
  | muuD (sr : Bool)
  /-- MUU.reserved: integer-only opcode under CLASS = 0x: reserved (R79) -/
  | muuReserved (sr : Bool) (cls : BitVec 2)
  /-- PTO.S: CLASS fixed by the row -/
  | ptoS (sr : Bool)
  /-- PTO.D: CLASS fixed by the row -/
  | ptoD (sr : Bool)
  /-- PTO.F: class-selected, CLASS = 0x -/
  | ptoF (sr : Bool) (cls : BitVec 2)
  /-- POP.S: CLASS fixed by the row -/
  | popS (sr : Bool)
  /-- POP.D: CLASS fixed by the row -/
  | popD (sr : Bool)
  /-- POP.F: class-selected, CLASS = 0x -/
  | popF (sr : Bool) (cls : BitVec 2)
  /-- XCH.S: CLASS fixed by the row -/
  | xchS (sr : Bool)
  /-- XCH.D: CLASS fixed by the row -/
  | xchD (sr : Bool)
  /-- XCH.F: class-selected, CLASS = 0x -/
  | xchF (sr : Bool) (cls : BitVec 2)
  /-- PUPI: class-ignored -/
  | pupi (sr : Bool) (cls : BitVec 2)
  /-- UNKNOWN: class-ignored -/
  | unknown (sr : Bool) (cls : BitVec 2)
  /-- FLTD: class-ignored -/
  | fltd (sr : Bool) (cls : BitVec 2)
  /-- FLTS: class-ignored -/
  | flts (sr : Bool) (cls : BitVec 2)
  /-- FIXD: class-ignored -/
  | fixd (sr : Bool) (cls : BitVec 2)
  /-- FIXS: class-ignored -/
  | fixs (sr : Bool) (cls : BitVec 2)
deriving DecidableEq, Repr

end Sys2Proof
end

