-- ==== Sys2Proof/Machine/Parameters.lean ====
section
/-! DEFINITION. The parameters of the block for which the spec decides a value (00_scope.md R7, R32):
one definition each, read by every rule that depends on it and stated nowhere else. -/

namespace Sys2Proof.Machine

/-- `CLASS_MAP` (R72, decision D2, log entry 8): the operand class of the CLASS field, command bit 6
first. -/
def classMap (field : BitVec 2) : OpClass :=
  if field = 0b11 then .i16 else if field = 0b10 then .i32 else .f32

/-- The CLASS bits of a class, also its stored form in the latch (R28, R72, decision D21). -/
def classBits : OpClass → BitVec 2
  | .i16 => 0b11
  | .i32 => 0b10
  | .f32 => 0b00

/-- An assignment of numbers to handlers: the type of the parameter `OPC` (R7, R76). Decoder and encoder
take it as an argument, so that a different assignment changes no rule. -/
abbrev OpcodeTable := Opcode → BitVec 5

/-- The decided value of `OPC` (R76, decision D3, log entry 9): the 5-bit opcode numbers. -/
def opc : OpcodeTable
  | .nop  => 0x00 | .sqrt => 0x01 | .sin  => 0x02 | .cos  => 0x03
  | .tan  => 0x04 | .asin => 0x05 | .acos => 0x06 | .atan => 0x07
  | .log  => 0x08 | .ln   => 0x09 | .exp  => 0x0A | .pwr  => 0x0B
  | .add  => 0x0C | .sub  => 0x0D | .mul  => 0x0E | .div  => 0x0F
  | .fadd => 0x10 | .fsub => 0x11 | .fmul => 0x12 | .fdiv => 0x13
  | .chs  => 0x14 | .chsf => 0x15 | .muu  => 0x16 | .pto  => 0x17
  | .pop  => 0x18 | .xch  => 0x19 | .pupi => 0x1A
  | .fltd => 0x1C | .flts => 0x1D | .fixd => 0x1E | .fixs => 0x1F

/-- Every handler with an opcode number. -/
def allOpcodes : List Opcode :=
  [.nop, .sqrt, .sin, .cos, .tan, .asin, .acos, .atan, .log, .ln, .exp, .pwr, .add, .sub, .mul, .div] ++
  [.fadd, .fsub, .fmul, .fdiv, .chs, .chsf, .muu, .pto, .pop, .xch, .pupi, .fltd, .flts, .fixd, .fixs]

/-- The handler an opcode number selects under a table, or none for an unknown opcode (R74, R78). -/
def handlerOf (table : OpcodeTable) (op : BitVec 5) : Option Opcode :=
  allOpcodes.find? (fun h => table h == op)

/-- The 32 opcode numbers. -/
def allNumbers : List (BitVec 5) := (List.range 32).map (BitVec.ofNat 5)

/-- The opcode number without a handler under a table (R78): there are 31 handlers, so a table that
gives each its own number leaves exactly one; under `opc` it is 0x1B. -/
def opcUnknown (table : OpcodeTable) : BitVec 5 :=
  (allNumbers.find? (fun op => (handlerOf table op).isNone)).getD 0

/-- `ERRCODE` (R26, decision D4, log entry 10): the value of status bits 4:1. -/
def errCode : ErrorCode → BitVec 4
  | .none => 0b0000
  | .ovf  => 0b0001
  | .und  => 0b0010
  | .neg  => 0b0100
  | .div0 => 0b1000
  | .arg  => 0b1100

/-- `OPERAND_ORDER` (R180, R190, decision D5, log entry 11): the pair (left, right) of a two-operand
command from the operands at TOS and NOS. TOS is the right-hand operand A, NOS the left-hand B. -/
def leftRight {α : Type} (tos nos : α) : α × α := (nos, tos)

/-- `SUB_CARRY` (R242, R243, decision D6, log entry 12): CARRY after a subtraction, from the borrow. -/
def subCarry (borrow : Bool) : Bool := borrow

/-- `MUL_OVF_RULE` and `MUL32_OVF` (R253, decision D11, log entry 13): OVF of a signed multiply, from
the high half of the magnitude product. -/
def mulOvf {w : Nat} (highHalf : BitVec w) : Bool := highHalf != 0

/-- `LOG_ZERO` (R7, R219, R220, R222, decision D17, log entry 6). Of the parameter's values the spec names
`refuse`; this model runs these operands with a free outcome. DESIGN CHOICE, unsafe. -/
def logZeroRule : LogZeroRule := .free

/-- `INT_OP_FLOAT_CLASS` (R79, decision D9, log entry 17): an integer-only opcode under a float class is
refused. -/
def intOpFloatClass : IntOpFloatClass := .refuse

/-- `FIX_ROUND` (R155, decision D14, log entry 14): the integer a float value is fixed to, truncating
toward zero. -/
def fixRound (r : Rat) : Int := r.num.tdiv r.den

/-- `TAN_SMALL` (R215, decision D18, log entry 15): is the operand of TAN below `2^-12`, on magnitudes,
so that it stands as the result? -/
def tanSmall (a : Rat) : Bool := decide (|a| < mkRat 1 (2 ^ 12))

/-- `IEEE_DECODE_ALL_ONES` (R276, decision D26, log entry 16): is an IEEE754 biased exponent refused
by the decoder? -/
def ieeeDecodeRefuses (biased : Nat) : Bool := biased == 255

/-- The domain bound of EXP and of PWR's product: "outside ±32" (R221, R222). -/
def expBound : Rat := 32

end Sys2Proof.Machine
end

