-- ==== Sys2Proof/WellFormed.lean ====
section
/-! DEFINITION. Which terms of `Instr` stand for a command byte.

The CLASS field of a `.F` form and of a reserved form is one of the values that `CLASS_MAP` reads as
F32 (30_encoding.md R77: match with mask 0x5F); every other field may hold any value. -/

namespace Sys2Proof

/-- Does the CLASS field select the float class (R72)? -/
def isFloatClass (cls : BitVec 2) : Bool := Machine.classMap cls == .f32

/-- The command stands for a byte of its own row. -/
def Instr.wellFormed : Instr → Bool
  | .chsF _ cls => isFloatClass cls
  | .ptoF _ cls => isFloatClass cls
  | .popF _ cls => isFloatClass cls
  | .xchF _ cls => isFloatClass cls
  | .addReserved _ cls => isFloatClass cls
  | .subReserved _ cls => isFloatClass cls
  | .mulReserved _ cls => isFloatClass cls
  | .divReserved _ cls => isFloatClass cls
  | .muuReserved _ cls => isFloatClass cls
  | .nop _ _ | .sqrt _ _ | .sin _ _ | .cos _ _ | .tan _ _ | .asin _ _ | .acos _ _ | .atan _ _ => true
  | .log _ _ | .ln _ _ | .exp _ _ | .pwr _ _ => true
  | .addS _ | .addD _ | .subS _ | .subD _ | .mulS _ | .mulD _ | .divS _ | .divD _ => true
  | .fadd _ _ | .fsub _ _ | .fmul _ _ | .fdiv _ _ => true
  | .chsS _ | .chsD _ | .chsf _ _ | .muuS _ | .muuD _ => true
  | .ptoS _ | .ptoD _ | .popS _ | .popD _ | .xchS _ | .xchD _ => true
  | .pupi _ _ | .unknown _ _ | .fltd _ _ | .flts _ _ | .fixd _ _ | .fixs _ _ => true

end Sys2Proof
end

