-- ==== Sys2Proof/Decode.lean ====
section
/-! DEFINITION. Reading a command byte and writing one (30_encoding.md).

Decoding is total on bytes: every one of the 256 values reads as exactly one row (R74, R77, R84).
The encoder follows the same table. -/

namespace Sys2Proof

/-- Why a byte string is not a command. Every command is exactly one byte (R70, R81). -/
inductive DecodeReject where
  /-- no byte was given -/
  | noByte
  /-- more than one byte was given -/
  | moreThanOneByte
deriving DecidableEq, Repr

/-- SR, command bit 7 (R70). -/
def srField (c : Byte) : Bool := c.getLsbD 7

/-- CLASS, command bits 6:5 (R70, R72). -/
def classField (c : Byte) : BitVec 2 := c.extractLsb' 5 2

/-- OPCODE, command bits 4:0 (R70). -/
def opcodeField (c : Byte) : BitVec 5 := c.extractLsb' 0 5

/-- Routing of a class-selected or integer-only opcode on its class (R74, R102). -/
def byClass (cls : BitVec 2) (s d f : Instr) : Instr :=
  match Machine.classMap cls with
  | .i16 => s
  | .i32 => d
  | .f32 => f

/-- The command of a handler under a CLASS field (R76, R77, R79). -/
def instrOf (h : Opcode) (sr : Bool) (cls : BitVec 2) : Instr :=
  match h with
  | .nop => .nop sr cls
  | .sqrt => .sqrt sr cls
  | .sin => .sin sr cls
  | .cos => .cos sr cls
  | .tan => .tan sr cls
  | .asin => .asin sr cls
  | .acos => .acos sr cls
  | .atan => .atan sr cls
  | .log => .log sr cls
  | .ln => .ln sr cls
  | .exp => .exp sr cls
  | .pwr => .pwr sr cls
  | .add => byClass cls (.addS sr) (.addD sr) (.addReserved sr cls)
  | .sub => byClass cls (.subS sr) (.subD sr) (.subReserved sr cls)
  | .mul => byClass cls (.mulS sr) (.mulD sr) (.mulReserved sr cls)
  | .div => byClass cls (.divS sr) (.divD sr) (.divReserved sr cls)
  | .fadd => .fadd sr cls
  | .fsub => .fsub sr cls
  | .fmul => .fmul sr cls
  | .fdiv => .fdiv sr cls
  | .chs => byClass cls (.chsS sr) (.chsD sr) (.chsF sr cls)
  | .chsf => .chsf sr cls
  | .muu => byClass cls (.muuS sr) (.muuD sr) (.muuReserved sr cls)
  | .pto => byClass cls (.ptoS sr) (.ptoD sr) (.ptoF sr cls)
  | .pop => byClass cls (.popS sr) (.popD sr) (.popF sr cls)
  | .xch => byClass cls (.xchS sr) (.xchD sr) (.xchF sr cls)
  | .pupi => .pupi sr cls
  | .fltd => .fltd sr cls
  | .flts => .flts sr cls
  | .fixd => .fixd sr cls
  | .fixs => .fixs sr cls

/-- The command a byte stands for under a table of opcode numbers (R74, R76, R84): the handler of its
opcode, or the unknown opcode (R78). -/
def decodeByteUnder (table : Machine.OpcodeTable) (c : Byte) : Instr :=
  match Machine.handlerOf table (opcodeField c) with
  | some h => instrOf h (srField c) (classField c)
  | none => .unknown (srField c) (classField c)

/-- The command a byte stands for under the decided `OPC` (R76). -/
def decodeByte (c : Byte) : Instr := decodeByteUnder Machine.opc c

/-- The command a byte string stands for under a table; a string that is not one byte is rejected by name
(R81). -/
def decodeUnder (table : Machine.OpcodeTable) : List Byte → Except DecodeReject Instr
  | [] => .error .noByte
  | [c] => .ok (decodeByteUnder table c)
  | _ :: _ :: _ => .error .moreThanOneByte

/-- The command a byte string stands for under the decided `OPC` (R76, R81). -/
def decode (bytes : List Byte) : Except DecodeReject Instr := decodeUnder Machine.opc bytes

/-- A command byte from its three fields, most significant first (R70). -/
def commandByte (sr : Bool) (cls : BitVec 2) (op : BitVec 5) : Byte := BitVec.ofBool sr ++ cls ++ op

/-- The bytes of a well-formed command under a table of opcode numbers (R76, R77). -/
def encodeUnder (table : Machine.OpcodeTable) (i : Instr) : List Byte :=
  match i with
  | .nop sr cls => [commandByte sr cls (table .nop)]
  | .sqrt sr cls => [commandByte sr cls (table .sqrt)]
  | .sin sr cls => [commandByte sr cls (table .sin)]
  | .cos sr cls => [commandByte sr cls (table .cos)]
  | .tan sr cls => [commandByte sr cls (table .tan)]
  | .asin sr cls => [commandByte sr cls (table .asin)]
  | .acos sr cls => [commandByte sr cls (table .acos)]
  | .atan sr cls => [commandByte sr cls (table .atan)]
  | .log sr cls => [commandByte sr cls (table .log)]
  | .ln sr cls => [commandByte sr cls (table .ln)]
  | .exp sr cls => [commandByte sr cls (table .exp)]
  | .pwr sr cls => [commandByte sr cls (table .pwr)]
  | .addS sr => [commandByte sr (Machine.classBits .i16) (table .add)]
  | .addD sr => [commandByte sr (Machine.classBits .i32) (table .add)]
  | .addReserved sr cls => [commandByte sr cls (table .add)]
  | .subS sr => [commandByte sr (Machine.classBits .i16) (table .sub)]
  | .subD sr => [commandByte sr (Machine.classBits .i32) (table .sub)]
  | .subReserved sr cls => [commandByte sr cls (table .sub)]
  | .mulS sr => [commandByte sr (Machine.classBits .i16) (table .mul)]
  | .mulD sr => [commandByte sr (Machine.classBits .i32) (table .mul)]
  | .mulReserved sr cls => [commandByte sr cls (table .mul)]
  | .divS sr => [commandByte sr (Machine.classBits .i16) (table .div)]
  | .divD sr => [commandByte sr (Machine.classBits .i32) (table .div)]
  | .divReserved sr cls => [commandByte sr cls (table .div)]
  | .fadd sr cls => [commandByte sr cls (table .fadd)]
  | .fsub sr cls => [commandByte sr cls (table .fsub)]
  | .fmul sr cls => [commandByte sr cls (table .fmul)]
  | .fdiv sr cls => [commandByte sr cls (table .fdiv)]
  | .chsS sr => [commandByte sr (Machine.classBits .i16) (table .chs)]
  | .chsD sr => [commandByte sr (Machine.classBits .i32) (table .chs)]
  | .chsF sr cls => [commandByte sr cls (table .chs)]
  | .chsf sr cls => [commandByte sr cls (table .chsf)]
  | .muuS sr => [commandByte sr (Machine.classBits .i16) (table .muu)]
  | .muuD sr => [commandByte sr (Machine.classBits .i32) (table .muu)]
  | .muuReserved sr cls => [commandByte sr cls (table .muu)]
  | .ptoS sr => [commandByte sr (Machine.classBits .i16) (table .pto)]
  | .ptoD sr => [commandByte sr (Machine.classBits .i32) (table .pto)]
  | .ptoF sr cls => [commandByte sr cls (table .pto)]
  | .popS sr => [commandByte sr (Machine.classBits .i16) (table .pop)]
  | .popD sr => [commandByte sr (Machine.classBits .i32) (table .pop)]
  | .popF sr cls => [commandByte sr cls (table .pop)]
  | .xchS sr => [commandByte sr (Machine.classBits .i16) (table .xch)]
  | .xchD sr => [commandByte sr (Machine.classBits .i32) (table .xch)]
  | .xchF sr cls => [commandByte sr cls (table .xch)]
  | .pupi sr cls => [commandByte sr cls (table .pupi)]
  | .unknown sr cls => [commandByte sr cls (Machine.opcUnknown table)]
  | .fltd sr cls => [commandByte sr cls (table .fltd)]
  | .flts sr cls => [commandByte sr cls (table .flts)]
  | .fixd sr cls => [commandByte sr cls (table .fixd)]
  | .fixs sr cls => [commandByte sr cls (table .fixs)]

/-- The bytes of a well-formed command under the decided `OPC` (R76, R77). -/
def encode (i : Instr) : List Byte := encodeUnder Machine.opc i

/-- The bytes of a table word: bit 0 of `w` is bit 0 of the first byte, and a second byte's bits count
on from bit 8; bits at and above `nbits` are 0. -/
def bytesOfWord (nbits w : Nat) : List Byte :=
  (List.range ((nbits + 7) / 8)).map (fun i => BitVec.ofNat 8 ((w % 2 ^ nbits) >>> (8 * i)))

/-- What the decoder reads from an instruction whose bits are `w`. -/
def decodeTableWord (nbits w : Nat) : Option Instr :=
  match decode (bytesOfWord nbits w) with
  | .ok i => some i
  | .error _ => none

end Sys2Proof
end

