-- ==== Sys2Proof/Machine/State.lean ====
section
/-! DEFINITION. The state of one device instance (10_state.md: "stack + pointer + status + latch"), the
reasons a step can stop, and the state after reset.

Three further fields are the model's own, no state of the spec's: the host's transaction stream that
the step reads, the bytes the device has returned to the host, and the counter of the free values. -/

namespace Sys2Proof.Machine

/-- The stack cells `x[0] .. x[15]` as (index, byte) pairs: indices strictly rising, none above 15, no
entry equal to what an unlisted index reads as (`Memory.wf` of Machine/Ops.lean; R20, R30). -/
abbrev Memory := List Host.Cell

/-- The five transactions, "the entire contract a driver ... needs" (R55, R83, R114). -/
inductive Transaction where
  /-- `push(byte)`: a byte written at the data point -/
  | push (b : Byte)
  /-- `pop() -> byte`: a byte read at the data point -/
  | pop
  /-- `status() -> byte`: the status register read -/
  | status
  /-- `command(byte)`: a command issued -/
  | command (c : Byte)
  /-- `reset()` -/
  | reset
deriving DecidableEq, Repr

/-- One device instance, and the host's side of it. -/
structure State where
  /-- the 16 stack cells (R20) -/
  x : Memory
  /-- the stack pointer, index of the next free cell (R21) -/
  sp : BitVec 4
  /-- the status register: BUSY, SIGN, ZERO, ERROR (4 bits), CARRY (R24) -/
  status : BitVec 8
  /-- the operand-class latch (R28) -/
  cls : OpClass
  /-- MODEL'S OWN: the transactions the host has yet to issue, the next one first (R58, R59, D23) -/
  pending : List Transaction
  /-- MODEL'S OWN: the bytes that `pop` and `status` have returned to the host, oldest first (R114) -/
  returned : List Byte
  /-- MODEL'S OWN: how many free values have been drawn (log entry 2) -/
  draws : Nat
deriving DecidableEq, Repr

/-- The reasons the machine stops with a fault: there is none. "Errors are reported through the status
register's error field ... not raised as host-visible exceptions" (R300); every stack index wraps
(R53), no encoding traps (R80), over- and underflow are not detected (R35, R338). No rule raises a
fault, so the type has no constructor; that is safe, since nothing is stopped that the spec lets go on
and nothing goes on that the spec stops. -/
inductive Fault where
deriving DecidableEq, Repr

/-- The reasons the model gives a command no meaning. -/
inductive Refusal where
  /-- Raised by `exec` alone, for a command whose meaning is not written yet. Safe: nothing is claimed. -/
  | notModelled (mnemonic : String)
  /-- Raised by the five reserved rows, an integer-only opcode under a float class: "This spec gives
  these ten byte values no meaning: a model refuses them" (R79). Safe: nothing is claimed of them. -/
  | reservedEncoding (mnemonic : String)
  /-- Raised by LN, LOG and PWR at zero under the value `refuse` of the parameter `LOG_ZERO` (R220, R222,
  decision D17), which is not the value the model runs with (log entry 6). Safe: nothing is claimed of
  such a run. -/
  | logarithmOfZero (mnemonic : String)
deriving DecidableEq, Repr

/-- The device right after `reset()`, and at creation (R33, R330, R331): every cell 0, pointer 0, status
0x00, latch 00 read as F32. No transaction is pending, none has returned a byte. -/
def State.reset : State where
  x := []
  sp := 0
  status := 0x00
  cls := .f32
  pending := []
  returned := []
  draws := 0

end Sys2Proof.Machine
end

