-- ==== Sys2Proof/Machine/Ops.lean ====
section
/-! DEFINITION. The operations every meaning is built from: the stack cells, the pointer, the three
stack primitives, the status register's fields, the dispatcher's prologue and epilogue, and `raise`.

The block takes no exception: "raise E" writes the ERROR field, no control is transferred, nothing is
saved and there is nothing to return from (00_scope.md R9; 60_exceptions.md R300, R303). -/

namespace Sys2Proof.Machine

/-- The outcome of a meaning or a step. -/
abbrev Result := Host.Outcome State Fault Refusal

/-! ### The cells -/

/-- What a cell that the list does not hold reads as: the reset contents (R33). -/
def unlisted : Byte := 0x00

/-- `x[i]` (R9). -/
def Memory.read : Memory → Nat → Byte
  | [], _ => unlisted
  | (k, v) :: rest, a => if k = a then v else Memory.read rest a

/-- A pair put before the first larger index. -/
def Memory.insert (a : Nat) (b : Byte) : Memory → Memory
  | [] => [(a, b)]
  | (k, v) :: rest => if a < k then (a, b) :: (k, v) :: rest else (k, v) :: Memory.insert a b rest

/-- `x[i] <- v` (R9), keeping the canonical form. -/
def Memory.write (m : Memory) (a : Nat) (b : Byte) : Memory :=
  let others := m.filter (fun c => c.1 != a)
  if b = unlisted then others else Memory.insert a b others

/-- The canonical form: indices strictly rising and below 16, no entry that reads as an unlisted cell. -/
abbrev Memory.wf (m : Memory) : Prop :=
  m.Pairwise (fun c d => c.1 < d.1) ∧ ∀ c ∈ m, c.1 < 16 ∧ c.2 ≠ unlisted

/-! ### The pointer and the stack primitives -/

/-- The physical index of `at(k)`: `(sp + k) mod 16` (R9, R22, R106). -/
def State.idx (s : State) (k : Int) : Nat := (s.sp + BitVec.ofInt 4 k).toNat

/-- `at(k)` read (R106). -/
def State.peek (s : State) (k : Int) : Byte := s.x.read (s.idx k)

/-- `at(k) <- v` (R106). -/
def State.poke (s : State) (k : Int) (v : Byte) : State := { s with x := s.x.write (s.idx k) v }

/-- `sp <- (sp + d) mod 16` (R21). -/
def State.moveSp (s : State) (d : Int) : State := { s with sp := s.sp + BitVec.ofInt 4 d }

/-- `push(b)`: store at the pointer, advance by 1 mod 16 (R104). -/
def State.pushByte (s : State) (b : Byte) : State := (s.poke 0 b).moveSp 1

/-- `pop()`: retreat the pointer by 1 mod 16, return the stored byte; the cell is not cleared (R105). -/
def State.popByte (s : State) : Byte × State :=
  let t := s.moveSp (-1)
  (t.peek 0, t)

/-- Exchange the bytes of `at(i)` and `at(j)` (R140, R141). -/
def State.swapCells (s : State) (i j : Int) : State :=
  let t := s.peek i
  (s.poke i (s.peek j)).poke j t

/-! ### The status register -/

/-- The status byte of five fields: BUSY, SIGN, ZERO, ERROR, CARRY (R24). -/
def statusPack (busy sign zero : Bool) (error : BitVec 4) (carry : Bool) : BitVec 8 :=
  BitVec.ofBool busy ++ BitVec.ofBool sign ++ BitVec.ofBool zero ++ error ++ BitVec.ofBool carry

/-- BUSY, bit 7 (R24). -/
def statusBusy (v : BitVec 8) : Bool := v.getLsbD 7
/-- SIGN, bit 6 (R24). -/
def statusSign (v : BitVec 8) : Bool := v.getLsbD 6
/-- ZERO, bit 5 (R24). -/
def statusZero (v : BitVec 8) : Bool := v.getLsbD 5
/-- ERROR, bits 4:1 (R24). -/
def statusError (v : BitVec 8) : BitVec 4 := v.extractLsb' 1 4
/-- CARRY, bit 0 (R24). -/
def statusCarry (v : BitVec 8) : Bool := v.getLsbD 0

/-- `status.SIGN <- b`. -/
def State.setSign (s : State) (b : Bool) : State :=
  let v := s.status
  { s with status := statusPack (statusBusy v) b (statusZero v) (statusError v) (statusCarry v) }

/-- `status.ZERO <- b`. -/
def State.setZero (s : State) (b : Bool) : State :=
  let v := s.status
  { s with status := statusPack (statusBusy v) (statusSign v) b (statusError v) (statusCarry v) }

/-- `status.CARRY <- b`. -/
def State.setCarry (s : State) (b : Bool) : State :=
  let v := s.status
  { s with status := statusPack (statusBusy v) (statusSign v) (statusZero v) (statusError v) b }

/-- `raise E`: the ERROR field takes the code and nothing else happens (R300). -/
def State.raise (s : State) (e : ErrorCode) : State :=
  let v := s.status
  { s with status := statusPack (statusBusy v) (statusSign v) (statusZero v) (errCode e) (statusCarry v) }

/-- `if b then raise E`. -/
def State.raiseIf (s : State) (b : Bool) (e : ErrorCode) : State := if b then s.raise e else s

/-- `cls <- c`: a handler overwrites the latch (R28, R75). -/
def State.latch (s : State) (c : OpClass) : State := { s with cls := c }

/-! ### The command transaction -/

/-- The dispatcher's prologue: BUSY alone set, the class latched (R100). -/
def State.prologue (s : State) (c : OpClass) : State := { s with status := 0x80, cls := c }

/-- The dispatcher's epilogue: BUSY cleared, bits 6:0 as the handler left them (R101). -/
def State.epilogue (s : State) : State :=
  let v := s.status
  { s with status := statusPack false (statusSign v) (statusZero v) (statusError v) (statusCarry v) }

/-- `command(c)`: prologue, handler, epilogue, in this order, as one atomic step (R103). -/
def runCommand (c : OpClass) (handler : State → State) (s : State) : Result :=
  .next (handler (s.prologue c)).epilogue

/-- The next free value of a parameter: the counter moves on, so the next draw is independent of this
one (log entry 2). -/
def State.draw {α : Type} (free : Nat → α) (s : State) : α × State :=
  (free s.draws, { s with draws := s.draws + 1 })

end Sys2Proof.Machine
end

