-- ==== Sys2Proof/Machine/Operands.lean ====
section
/-! DEFINITION. The operand views: TOS and NOS of 2 and 4 bytes, and the shapes in which a command
writes its result back (10_state.md R22; 43_integer_arithmetic.md R180). -/

namespace Sys2Proof.Machine

/-- Byte `i` of an operand, byte 0 the least significant (R22, R50). -/
def byteOf {w : Nat} (v : BitVec w) (i : Nat) : Byte := v.extractLsb' (8 * i) 8

/-- `TOS(2)`: `at(-2)` its least significant byte (R22). -/
def State.tos16 (s : State) : Word16 := s.peek (-1) ++ s.peek (-2)

/-- `NOS(2)` (R22). -/
def State.nos16 (s : State) : Word16 := s.peek (-3) ++ s.peek (-4)

/-- `TOS(4)`: `at(-4)` its least significant byte (R22). -/
def State.tos32 (s : State) : Word32 := s.peek (-1) ++ s.peek (-2) ++ s.peek (-3) ++ s.peek (-4)

/-- `NOS(4)` (R22). -/
def State.nos32 (s : State) : Word32 := s.peek (-5) ++ s.peek (-6) ++ s.peek (-7) ++ s.peek (-8)

/-- The four bytes at TOS as a wire float, `at(-4)` its `b0` (R190). -/
def State.tosWire (s : State) : Wire := ⟨s.peek (-4), s.peek (-3), s.peek (-2), s.peek (-1)⟩

/-- The four bytes at NOS as a wire float, `at(-8)` its `b0` (R190). -/
def State.nosWire (s : State) : Wire := ⟨s.peek (-8), s.peek (-7), s.peek (-6), s.peek (-5)⟩

/-- `TOS(2) <- v` (R9). -/
def State.setTos16 (s : State) (v : Word16) : State := (s.poke (-2) (byteOf v 0)).poke (-1) (byteOf v 1)

/-- The four cells at TOS written, least significant byte first (R9, R193). -/
def State.setTosWire (s : State) (v : Wire) : State :=
  (((s.poke (-4) v.b0).poke (-3) v.b1).poke (-2) v.b2).poke (-1) v.b3

/-- The bytes of a 32-bit pattern, least significant first (R22). -/
def wireOf32 (v : Word32) : Wire := ⟨byteOf v 0, byteOf v 1, byteOf v 2, byteOf v 3⟩

/-- `TOS(4) <- v` (R9). -/
def State.setTos32 (s : State) (v : Word32) : State := s.setTosWire (wireOf32 v)

/-- Two bytes pushed, least significant first (R134, R152). -/
def State.push16 (s : State) (v : Word16) : State := (s.pushByte (byteOf v 0)).pushByte (byteOf v 1)

/-- Four bytes pushed, `b0` first (R133, R150). -/
def State.pushWire (s : State) (v : Wire) : State :=
  (((s.pushByte v.b0).pushByte v.b1).pushByte v.b2).pushByte v.b3

/-- `commit(2, r)`: both 16-bit operands replaced by one result (R180). -/
def State.commit16 (s : State) (r : Word16) : State := (s.moveSp (-2)).setTos16 r

/-- `commit(4, r)`: both 32-bit operands replaced by one result (R180). -/
def State.commit32 (s : State) (r : Word32) : State := (s.moveSp (-4)).setTos32 r

end Sys2Proof.Machine
end

