-- ==== Sys2Proof/Machine/Flags.lean ====
section
/-! DEFINITION. The flag rule `sz` (40_dispatch_and_primitives.md R107) and the overflow predicates of
the integer commands (46_arithmetic_library.md R244, R245). -/

namespace Sys2Proof.Machine

/-- ZERO of the bytes just below the pointer, read under a class (R107; 90_conflicts.md C1 for F32). -/
def State.zeroBelow (s : State) : OpClass → Bool
  | .i16 => (s.peek (-1) ||| s.peek (-2)) == 0
  | .i32 => (s.peek (-1) ||| s.peek (-2) ||| s.peek (-3) ||| s.peek (-4)) == 0
  | .f32 => !(s.peek (-2)).getLsbD 7

/-- `sz()`: SIGN and ZERO from the bytes just below the pointer, under the current latch (R107). -/
def State.sz (s : State) : State := (s.setSign ((s.peek (-1)).getLsbD 7)).setZero (s.zeroBelow s.cls)

/-- `oadd16`, `oadd32`: overflow iff the operands' signs agree and the result's differs (R244). -/
def oadd {w : Nat} (a b r : BitVec w) : Bool := a.msb == b.msb && r.msb != a.msb

/-- `osub16`, `osub32`: overflow iff the operands' signs differ and the result's sign differs from the
left operand's (R245). -/
def osub {w : Nat} (a b r : BitVec w) : Bool := a.msb != b.msb && r.msb != a.msb

end Sys2Proof.Machine
end

