-- ==== Sys2Proof/Machine/FloatFormat.lean ====
section
/-! DEFINITION. The float format library (47_float_format_library.md): the canonical record and the
converter pair of each of the four 4-byte formats. The commands use only the AM9511 pair.

A converter answers none for the spec's "error" (R284): no byte is then defined. -/

namespace Sys2Proof.Machine

/-- The canonical float record (R270). -/
structure Canon where
  sign         : Bool
  /-- signed, unbiased, of no fixed width -/
  exponent     : Int
  mantissaHigh : BitVec 8
  mantissaLow  : BitVec 16
deriving DecidableEq, Repr

/-- The all-zero record (R270). -/
def Canon.zero : Canon := ⟨false, 0, 0x00, 0x0000⟩

/-- The record is normal: its explicit leading one is set. Otherwise it is exactly 0.0 (R270). -/
def Canon.isNormal (c : Canon) : Bool := c.mantissaHigh.getLsbD 7

/-- The 24-bit mantissa `M` (R270). -/
def Canon.mantissa (c : Canon) : BitVec 24 := c.mantissaHigh ++ c.mantissaLow

/-- `m * 2^e`. -/
def scale (m : Nat) (e : Int) : Rat := mkRat (m * 2 ^ e.toNat : Nat) (2 ^ (-e).toNat)

/-- `val(c) = (-1)^sign * (M / 2^23) * 2^exponent`, or 0 for a zero record (R271). -/
def Canon.val (c : Canon) : Rat :=
  if c.isNormal then
    let m := scale c.mantissa.toNat (c.exponent - 23)
    if c.sign then -m else m
  else 0

/-- The contract shared by every encoder (R284): zero writes four zero bytes; otherwise the biased
exponent is range-checked and the bytes are laid out. -/
def encodeRecord (c : Canon) (bias lowest highest : Int) (layout : Int → Wire) : Option Wire :=
  if c.isNormal then
    let e := c.exponent + bias
    if e < lowest ∨ highest < e then none else some (layout e)
  else some Wire.zero

/-- A byte made of a sign bit and a 7-bit exponent field. -/
def signAndExponent (sign : Bool) (e : BitVec 7) : Byte := BitVec.ofBool sign ++ e

/-! ### AM9511 (R272 to R274) -/

/-- `am_to_canon` (R273): always ok. -/
def amToCanon (w : Wire) : Canon :=
  if w.b2.getLsbD 7 then ⟨w.b3.getLsbD 7, (w.b3.extractLsb' 0 7).toInt - 1, w.b2, w.b1 ++ w.b0⟩
  else Canon.zero

/-- `canon_to_am` (R274). -/
def canonToAm (c : Canon) : Option Wire :=
  encodeRecord c 1 (-64) 63 fun ea =>
    ⟨c.mantissaLow.extractLsb' 0 8, c.mantissaLow.extractLsb' 8 8, c.mantissaHigh,
      signAndExponent c.sign (BitVec.ofInt 7 ea)⟩

/-! ### IEEE754 single (R275 to R277) -/

/-- `ieee_to_canon` (R276): zero and every denormal read as 0, an all-ones exponent is an error. -/
def ieeeToCanon (w : Wire) : Option Canon :=
  let e : BitVec 8 := w.b3.extractLsb' 0 7 ++ w.b2.extractLsb' 7 1
  if e = 0 then some Canon.zero
  else if ieeeDecodeRefuses e.toNat then none
  else some ⟨w.b3.getLsbD 7, (e.toNat : Int) - 127, 0x80 ||| w.b2, w.b1 ++ w.b0⟩

/-- `canon_to_ieee` (R277). -/
def canonToIeee (c : Canon) : Option Wire :=
  encodeRecord c 127 1 254 fun e =>
    let field := BitVec.ofInt 8 e
    ⟨c.mantissaLow.extractLsb' 0 8, c.mantissaLow.extractLsb' 8 8,
      field.extractLsb' 0 1 ++ c.mantissaHigh.extractLsb' 0 7, signAndExponent c.sign (field.extractLsb' 1 7)⟩

/-! ### Microsoft Basic (R278 to R280) -/

/-- `ms_to_canon` (R279): always ok. -/
def msToCanon (w : Wire) : Canon :=
  if w.b3 = 0 then Canon.zero
  else ⟨w.b2.getLsbD 7, (w.b3.toNat : Int) - 129, 0x80 ||| w.b2, w.b1 ++ w.b0⟩

/-- `canon_to_ms` (R280). -/
def canonToMs (c : Canon) : Option Wire :=
  encodeRecord c 129 1 255 fun e =>
    ⟨c.mantissaLow.extractLsb' 0 8, c.mantissaLow.extractLsb' 8 8,
      signAndExponent c.sign (c.mantissaHigh.extractLsb' 0 7), BitVec.ofInt 8 e⟩

/-! ### HiTech C (R281 to R283) -/

/-- `hitech_to_canon` (R282): always ok. -/
def hitechToCanon (w : Wire) : Canon :=
  if w.b2.getLsbD 7 then ⟨w.b3.getLsbD 7, ((w.b3.extractLsb' 0 7).toNat : Int) - 65, w.b2, w.b1 ++ w.b0⟩
  else Canon.zero

/-- `canon_to_hitech` (R283). -/
def canonToHitech (c : Canon) : Option Wire :=
  encodeRecord c 65 0 127 fun e =>
    ⟨c.mantissaLow.extractLsb' 0 8, c.mantissaLow.extractLsb' 8 8, c.mantissaHigh,
      signAndExponent c.sign (BitVec.ofInt 7 e)⟩

end Sys2Proof.Machine
end

