-- ==== Sys2Proof/Machine/FloatOps.lean ====
section
/-! DEFINITION. The steps the float commands share: operand fetch, normalise and round, the exponent
range check with its fold, and the commits (44_float_arithmetic.md R190 to R193; 45_transcendental.md
R210; 42_conversions.md R154, R155). -/

namespace Sys2Proof.Machine

/-! ### From a rational to a record -/

/-- The integer `k` with `2^k <= n / d < 2^(k+1)`, for positive `n` and `d` (R191). -/
def binaryExponent (n d : Nat) : Int :=
  let k : Int := (n.log2 : Int) - (d.log2 : Int)
  if d * 2 ^ k.toNat ≤ n * 2 ^ (-k).toNat then k else k - 1

/-- `q = m / 2^(k - 23)` (R191). -/
def scaledMantissa (m : Rat) (k : Int) : Rat := m * scale 1 (23 - k)

/-- `FRound24(m, k)`: the integer `q` itself, else one of its two neighbours, chosen by the parameter
`FRound`; a mantissa rounded up to `2^24` renormalises (R191). -/
def round24 (sign : Bool) (m : Rat) (k : Int) : BitVec 24 × Int :=
  let q := scaledMantissa m k
  let below := q.floor.toNat
  let mantissa := if q.den = 1 then below else if Config.roundsUp sign q then below + 1 else below
  if mantissa = 2 ^ 24 then (BitVec.ofNat 24 (2 ^ 23), k + 1) else (BitVec.ofNat 24 mantissa, k)

/-- `normalise(r)`, for a non-zero rational: carried out exactly, rounded once to 24 bits (R191). -/
def normalise (r : Rat) : Canon :=
  let sign := decide (r < 0)
  let k := binaryExponent r.num.natAbs r.den
  let rounded := round24 sign |r| k
  ⟨sign, rounded.2, rounded.1.extractLsb' 16 8, rounded.1.extractLsb' 0 16⟩

/-- The record of a result: `r == 0 ? zero record : normalise(r)` (R194, R210). -/
def recordOf (r : Rat) : Canon := if r = 0 then Canon.zero else normalise r

/-- `int_to_canon(v)` (R154); an integer of at most 24 significant bits is exact. -/
def intToCanon (v : Int) : Canon := recordOf (v : Rat)

/-- `canon_to_int(c, w)`: the value rounded to an integer and range-checked, or failure (R155). -/
def canonToInt (c : Canon) (w : Nat) : Option Int :=
  let t := fixRound c.val
  if t < -(2 ^ (w - 1) : Int) ∨ (2 ^ (w - 1) : Int) - 1 < t then none else some t

/-! ### The exponent range check -/

/-- `range(c)`: the check on the AM9511 exponent `ea = e + 1`, with one fold by 128 (R192; log entry
20). -/
def range (c : Canon) : Canon × ErrorCode :=
  let ea := c.exponent + 1
  if 63 < ea then ({ c with exponent := ea - 128 - 1 }, .ovf)
  else if ea < -64 then ({ c with exponent := ea + 128 - 1 }, .und)
  else (c, .none)

/-- The bytes and the code a result is committed with: four zero bytes for zero, else the encoding after
the range check (R193, R210). The bytes are none when one fold was not enough (R210, U25). -/
def encodeResult (c : Canon) : Option Wire × ErrorCode :=
  if c.isNormal then
    let checked := range c
    (canonToAm checked.1, checked.2)
  else (some Wire.zero, .none)

/-- The last lines of a commit: `if err != NONE then raise err; sz()` (R193, R210). -/
def State.raiseAndSz (s : State) (e : ErrorCode) : State := (s.raiseIf (e != .none) e).sz

/-- What one free outcome leaves of a one-operand function: its bytes in place of the operand, its code,
the flags of those bytes (log entries 6 and 7). -/
def State.openCommit1 (s : State) (o : OpenOutcome) (e : ErrorCode) : State :=
  (s.setTosWire o.result).raiseAndSz e

/-- What one free outcome leaves of a two-operand function: both operands replaced by its bytes, or
nothing consumed; its code; the flags of what is then at TOS (log entries 6 and 7). -/
def State.openCommit2 (s : State) (o : OpenOutcome) (e : ErrorCode) : State :=
  if o.commit then ((s.moveSp (-4)).setTosWire o.result).raiseAndSz e else s.raiseAndSz e

/-- `fcommit1(c)`: the operand replaced in place (R210). -/
def State.fcommit1 (s : State) (c : Canon) : State :=
  match encodeResult c with
  | (some bytes, e) => (s.setTosWire bytes).raiseAndSz e
  | (none, e) =>
    let drawn := s.draw Config.beyondFold
    drawn.2.openCommit1 drawn.1 e

/-- `fcommit2(c)`: both operands replaced by the one result (R193). -/
def State.fcommit2 (s : State) (c : Canon) : State :=
  match encodeResult c with
  | (some bytes, e) => ((s.moveSp (-4)).setTosWire bytes).raiseAndSz e
  | (none, e) =>
    let drawn := s.draw Config.beyondFold
    drawn.2.openCommit2 drawn.1 e

/-! ### Operand fetch -/

/-- The value of the float at TOS (R190, R210). -/
def State.tosVal (s : State) : Rat := (amToCanon s.tosWire).val

/-- The value of the float at NOS (R190). -/
def State.nosVal (s : State) : Rat := (amToCanon s.nosWire).val

/-- The values of the two float operands, left then right (R190, decision D5). -/
def State.floatOperands (s : State) : Rat × Rat := leftRight s.tosVal s.nosVal

end Sys2Proof.Machine
end

