-- ==== Sys2Proof/Machine/Conversions.lean ====
section
/-! DEFINITION. FLTS, FLTD, FIXS, FIXD (42_conversions.md). -/

namespace Sys2Proof.Machine

/-- "Pops", then "pushes as a float operand": the record encoded and pushed (R150, R151). The encoder
cannot fail here, the exponent of a 32-bit integer being in its range; were it to, nothing is pushed. -/
def State.pushRecord (s : State) (c : Canon) : State :=
  match canonToAm c with
  | some bytes => s.pushWire bytes
  | none => s

/-- FLTS (R150). -/
def execFlts (_sr : Bool) (cls : BitVec 2) (s : State) : Result :=
  runCommand (classMap cls) (fun s =>
    let v := s.tos16.toInt
    (((s.moveSp (-2)).pushRecord (intToCanon v)).latch .f32).sz) s

/-- FLTD (R151). -/
def execFltd (_sr : Bool) (cls : BitVec 2) (s : State) : Result :=
  runCommand (classMap cls) (fun s =>
    let v := s.tos32.toInt
    (((s.moveSp (-4)).pushRecord (intToCanon v)).latch .f32).sz) s

/-- FIXS: out of range raises OVF and leaves the operand, no pop (R152). -/
def execFixs (_sr : Bool) (cls : BitVec 2) (s : State) : Result :=
  runCommand (classMap cls) (fun s =>
    let s := s.latch .f32
    match canonToInt (amToCanon s.tosWire) 16 with
    | none => (s.raise .ovf).sz
    | some t => (((s.moveSp (-4)).push16 (BitVec.ofInt 16 t)).latch .i16).sz) s

/-- FIXD: out of range raises OVF and leaves the operand (R153). -/
def execFixd (_sr : Bool) (cls : BitVec 2) (s : State) : Result :=
  runCommand (classMap cls) (fun s =>
    let s := s.latch .f32
    match canonToInt (amToCanon s.tosWire) 32 with
    | none => (s.raise .ovf).sz
    | some t => (((s.moveSp (-4)).pushWire (wireOf32 (BitVec.ofInt 32 t))).latch .i32).sz) s

end Sys2Proof.Machine
end

