-- ==== Sys2Proof/Machine/FloatArith.lean ====
section
/-! DEFINITION. FADD, FSUB, FMUL, FDIV (44_float_arithmetic.md): the operation carried out exactly on the
two values, rounded once, range-checked and committed. -/

namespace Sys2Proof.Machine

/-- FADD: `B + A` (R194). -/
def execFadd (_sr : Bool) (cls : BitVec 2) (s : State) : Result :=
  runCommand (classMap cls) (fun s =>
    let s := s.latch .f32
    let (b, a) := s.floatOperands
    s.fcommit2 (recordOf (b + a))) s

/-- FSUB: `B - A` (R195). -/
def execFsub (_sr : Bool) (cls : BitVec 2) (s : State) : Result :=
  runCommand (classMap cls) (fun s =>
    let s := s.latch .f32
    let (b, a) := s.floatOperands
    s.fcommit2 (recordOf (b - a))) s

/-- FMUL: `B * A` (R196). -/
def execFmul (_sr : Bool) (cls : BitVec 2) (s : State) : Result :=
  runCommand (classMap cls) (fun s =>
    let s := s.latch .f32
    let (b, a) := s.floatOperands
    s.fcommit2 (recordOf (b * a))) s

/-- FDIV: `B / A`; a zero divisor is dropped, the numerator's bytes stay and DIV0 is set (R197, decision
D20, log entry 21). A value is 0 exactly when its record is not normal. -/
def execFdiv (_sr : Bool) (cls : BitVec 2) (s : State) : Result :=
  runCommand (classMap cls) (fun s =>
    let s := s.latch .f32
    let (b, a) := s.floatOperands
    if a = 0 then ((s.moveSp (-4)).raise .div0).sz
    else s.fcommit2 (recordOf (b / a))) s

end Sys2Proof.Machine
end

