-- ==== Sys2Proof/Machine/ArithLib.lean ====
section
/-! DEFINITION. The overflow-aware arithmetic library (46_arithmetic_library.md), composed from the
narrow widths as its rules compose it: 32-bit sums of 16-bit halves, products of 8-bit partials. The
equations the rules derive ("hence r = (a + b) mod 2^32") are statements about these definitions. -/

namespace Sys2Proof.Machine

/-- The low half of a 32-bit pattern. -/
def lo16 (v : Word32) : Word16 := v.extractLsb' 0 16
/-- The high half of a 32-bit pattern. -/
def hi16 (v : Word32) : Word16 := v.extractLsb' 16 16

/-! ### Addition and subtraction -/

/-- `add16c(a, b, cin)` (R240). -/
def add16c (a b : Word16) (cin : Bool) : Word16 × Bool :=
  let sum := a.toNat + b.toNat + cin.toNat
  (BitVec.ofNat 16 sum, decide (2 ^ 16 ≤ sum))

/-- `add16(a, b)` (R240). -/
def add16 (a b : Word16) : Word16 × Bool := add16c a b false

/-- `add32(a, b)`: two 16-bit additions, the inner carry propagated and not reported (R241). -/
def add32 (a b : Word32) : Word32 × Bool :=
  let low := add16c (lo16 a) (lo16 b) false
  let high := add16c (hi16 a) (hi16 b) low.2
  (high.1 ++ low.1, high.2)

/-- `sub16c(a, b, bin)`, its indicator the borrow (R242). -/
def sub16c (a b : Word16) (bin : Bool) : Word16 × Bool :=
  let subtrahend := b.toNat + bin.toNat
  (BitVec.ofInt 16 ((a.toNat : Int) - subtrahend), decide (a.toNat < subtrahend))

/-- `sub16(a, b)` (R242). -/
def sub16 (a b : Word16) : Word16 × Bool :=
  let d := sub16c a b false
  (d.1, subCarry d.2)

/-- `sub32(a, b)`: two 16-bit subtractions, the inner borrow propagated and not reported (R243). -/
def sub32 (a b : Word32) : Word32 × Bool :=
  let low := sub16c (lo16 a) (lo16 b) false
  let high := sub16c (hi16 a) (hi16 b) low.2
  (high.1 ++ low.1, subCarry high.2)

/-! ### Negation -/

/-- The most negative value of a width: only its sign bit set (R11). -/
def minNeg (w : Nat) : BitVec w := BitVec.ofNat w (2 ^ (w - 1))

/-- `cm16(v)`, `cm32(v)`: two's complement negation; the indicator is true for the most negative value
(R246, R247). -/
def cm {w : Nat} (v : BitVec w) : BitVec w × Bool := (BitVec.ofNat w (2 ^ w - v.toNat), v == minNeg w)

/-! ### Unsigned multiplication -/

/-- `mul8(a, b)`, exact 8 x 8 to 16 (R248). -/
def mul8 (a b : Byte) : Word16 := a.zeroExtend 16 * b.zeroExtend 16

/-- `mul16(a, b)`: four 8 x 8 partial products at staggered byte offsets (R249). -/
def mul16 (a b : Word16) : Word32 :=
  let al := byteOf a 0; let ah := byteOf a 1
  let bl := byteOf b 0; let bh := byteOf b 1
  (mul8 al bl).zeroExtend 32 + ((mul8 ah bl).zeroExtend 32 <<< 8) + ((mul8 al bh).zeroExtend 32 <<< 8) +
    ((mul8 ah bh).zeroExtend 32 <<< 16)

/-- `mul32(a, b)`: four 16 x 16 partial products (R250). -/
def mul32 (a b : Word32) : BitVec 64 :=
  let al := lo16 a; let ah := hi16 a
  let bl := lo16 b; let bh := hi16 b
  (mul16 al bl).zeroExtend 64 + ((mul16 ah bl).zeroExtend 64 <<< 16) + ((mul16 al bh).zeroExtend 64 <<< 16) +
    ((mul16 ah bh).zeroExtend 64 <<< 32)

/-- `mull16(a, b)`: the low half, and whether the discarded half is non-zero (R251). -/
def mull16 (a b : Word16) : Word16 × Bool :=
  let p := mul16 a b
  (p.extractLsb' 0 16, p.extractLsb' 16 16 != 0)

/-- `mulu16(a, b)`: the high half (R251). -/
def mulu16 (a b : Word16) : Word16 := (mul16 a b).extractLsb' 16 16

/-- `mull32(a, b)` (R252). -/
def mull32 (a b : Word32) : Word32 × Bool :=
  let p := mul32 a b
  (p.extractLsb' 0 32, p.extractLsb' 32 32 != 0)

/-- `mulu32(a, b)` (R252). -/
def mulu32 (a b : Word32) : Word32 := (mul32 a b).extractLsb' 32 32

/-! ### Signed multiplication -/

/-- The magnitude of a two's complement pattern, as an unsigned pattern (R253). -/
def magnitude {w : Nat} (v : BitVec w) : BitVec w := if v.msb then (cm v).1 else v

/-- A magnitude with the sign restored (R253). -/
def signed {w : Nat} (negative : Bool) (m : BitVec w) : BitVec w := if negative then (cm m).1 else m

/-- The two halves of a signed product and its overflow indicator (R253). -/
structure Product (w : Nat) where
  lo  : BitVec w
  hi  : BitVec w
  ovf : Bool
deriving DecidableEq, Repr

/-- `smul16(b, a)`: magnitudes multiplied, the sign restored; overflow by the magnitude product's high
half (R253; 90_conflicts.md C3). -/
def smul16 (b a : Word16) : Product 16 :=
  let m := mul16 (magnitude b) (magnitude a)
  let p := signed (b.msb != a.msb) m
  ⟨p.extractLsb' 0 16, p.extractLsb' 16 16, mulOvf (m.extractLsb' 16 16)⟩

/-- `smul32(b, a)` (R253). -/
def smul32 (b a : Word32) : Product 32 :=
  let m := mul32 (magnitude b) (magnitude a)
  let p := signed (b.msb != a.msb) m
  ⟨p.extractLsb' 0 32, p.extractLsb' 32 32, mulOvf (m.extractLsb' 32 32)⟩

/-! ### Division -/

/-- `div16(b, a)`, `div32(b, a)`: the truncated signed quotient, or none for a zero divisor (R254, R255). -/
def divTrunc {w : Nat} (b a : BitVec w) : Option (BitVec w) :=
  if a = 0 then none else some (BitVec.ofInt w (b.toInt.tdiv a.toInt))

/-- The operands of the one quotient that is not representable: most negative / -1 (R178). -/
def isMinNegByMinusOne {w : Nat} (b a : BitVec w) : Bool := b == minNeg w && a == BitVec.allOnes w

end Sys2Proof.Machine
end

