-- ==== Sys2Proof/Machine/IntArith.lean ====
section
/-! DEFINITION. ADD, SUB, MUL, MUU, DIV (43_integer_arithmetic.md) and the reserved bytes of their opcodes
(30_encoding.md R79). A is the operand at TOS, the right-hand one, B the one at NOS (R180). -/

namespace Sys2Proof.Machine

/-- The operands (B, A) of a 16-bit command (R180). -/
def State.intOperands16 (s : State) : Word16 × Word16 := leftRight s.tos16 s.nos16

/-- The operands (B, A) of a 32-bit command (R180). -/
def State.intOperands32 (s : State) : Word32 × Word32 := leftRight s.tos32 s.nos32

/-! ### ADD and SUB -/

/-- ADD.S (R170). -/
def execAddS (_sr : Bool) (s : State) : Result :=
  runCommand .i16 (fun s =>
    let (b, a) := s.intOperands16
    let (r, c) := add16 b a
    (((s.commit16 r).setCarry c).raiseIf (oadd b a r) .ovf).sz) s

/-- The handler of ADD.D (R171). -/
def State.addHandler32 (s : State) : State :=
  let (b, a) := s.intOperands32
  let (r, c) := add32 b a
  (((s.commit32 r).setCarry c).raiseIf (oadd b a r) .ovf).sz

/-- ADD.D (R171). -/
def execAddD (_sr : Bool) (s : State) : Result := runCommand .i32 State.addHandler32 s

/-- SUB.S: `B - A` (R172). -/
def execSubS (_sr : Bool) (s : State) : Result :=
  runCommand .i16 (fun s =>
    let (b, a) := s.intOperands16
    let (r, c) := sub16 b a
    (((s.commit16 r).setCarry c).raiseIf (osub b a r) .ovf).sz) s

/-- The handler of SUB.D: `B - A` (R173). -/
def State.subHandler32 (s : State) : State :=
  let (b, a) := s.intOperands32
  let (r, c) := sub32 b a
  (((s.commit32 r).setCarry c).raiseIf (osub b a r) .ovf).sz

/-- SUB.D (R173). -/
def execSubD (_sr : Bool) (s : State) : Result := runCommand .i32 State.subHandler32 s

/-! ### MUL and MUU -/

/-- MUL.S: the low half; OVF by the magnitude product (R174). -/
def execMulS (_sr : Bool) (s : State) : Result :=
  runCommand .i16 (fun s =>
    let (b, a) := s.intOperands16
    let p := smul16 b a
    ((s.commit16 p.lo).raiseIf p.ovf .ovf).sz) s

/-- The handler of MUL.D: the low half; OVF by the same rule, which the source calls not authoritative (R175, log
entry 13). -/
def State.mulHandler32 (s : State) : State :=
  let (b, a) := s.intOperands32
  let p := smul32 b a
  ((s.commit32 p.lo).raiseIf p.ovf .ovf).sz

/-- MUL.D (R175). -/
def execMulD (_sr : Bool) (s : State) : Result := runCommand .i32 State.mulHandler32 s

/-- MUU.S: the high half, no overflow (R176). -/
def execMuuS (_sr : Bool) (s : State) : Result :=
  runCommand .i16 (fun s =>
    let (b, a) := s.intOperands16
    (s.commit16 (smul16 b a).hi).sz) s

/-- The handler of MUU.D: the high half, no overflow (R177). -/
def State.muuHandler32 (s : State) : State :=
  let (b, a) := s.intOperands32
  (s.commit32 (smul32 b a).hi).sz

/-- MUU.D (R177). -/
def execMuuD (_sr : Bool) (s : State) : Result := runCommand .i32 State.muuHandler32 s

/-! ### DIV -/

/-- OVF or NONE after most negative / -1, a draw of `DIV_MINNEG_ERR`; nothing for any other operands
(R178, decision D12, log entry 5). -/
def State.drawDivOvf (s : State) (corner : Bool) : State :=
  if corner then
    let drawn := s.draw Config.divMinNegOvf
    drawn.2.raiseIf drawn.1 .ovf
  else s

/-- DIV.S: `B / A`, truncating; a zero divisor sets DIV0 and leaves the stack (R178). -/
def execDivS (_sr : Bool) (s : State) : Result :=
  runCommand .i16 (fun s =>
    let (b, a) := s.intOperands16
    match divTrunc b a with
    | none => (s.raise .div0).sz
    | some q => ((s.commit16 q).drawDivOvf (isMinNegByMinusOne b a)).sz) s

/-- The handler of DIV.D (R179). -/
def State.divHandler32 (s : State) : State :=
  let (b, a) := s.intOperands32
  match divTrunc b a with
  | none => (s.raise .div0).sz
  | some q => ((s.commit32 q).drawDivOvf (isMinNegByMinusOne b a)).sz

/-- DIV.D (R179). -/
def execDivD (_sr : Bool) (s : State) : Result := runCommand .i32 State.divHandler32 s

/-! ### The reserved bytes: "gives these ten byte values no meaning: a model refuses them" (R79; log
entry 17) -/

/-- An integer-only opcode under a float class, for each value of `INT_OP_FLOAT_CLASS` (R79): refused by
name, a no-op, or its 32-bit handler. -/
def integerUnderFloat (value : IntOpFloatClass) (name : String) (handler32 : State → State) (cls : BitVec 2)
    (s : State) : Result :=
  match value with
  | .refuse => .refused (.reservedEncoding name)
  | .noop => runCommand (classMap cls) (fun s => s) s
  | .asI32 => runCommand .i32 handler32 s

/-- ADD under a float class (R79). -/
def execAddReserved (_sr : Bool) (cls : BitVec 2) (s : State) : Result :=
  integerUnderFloat intOpFloatClass "ADD.reserved" State.addHandler32 cls s

/-- SUB under a float class (R79). -/
def execSubReserved (_sr : Bool) (cls : BitVec 2) (s : State) : Result :=
  integerUnderFloat intOpFloatClass "SUB.reserved" State.subHandler32 cls s

/-- MUL under a float class (R79). -/
def execMulReserved (_sr : Bool) (cls : BitVec 2) (s : State) : Result :=
  integerUnderFloat intOpFloatClass "MUL.reserved" State.mulHandler32 cls s

/-- DIV under a float class (R79). -/
def execDivReserved (_sr : Bool) (cls : BitVec 2) (s : State) : Result :=
  integerUnderFloat intOpFloatClass "DIV.reserved" State.divHandler32 cls s

/-- MUU under a float class (R79). -/
def execMuuReserved (_sr : Bool) (cls : BitVec 2) (s : State) : Result :=
  integerUnderFloat intOpFloatClass "MUU.reserved" State.muuHandler32 cls s

end Sys2Proof.Machine
end

