-- ==== Sys2Proof/Machine/StackCommands.lean ====
section
/-! DEFINITION. NOP and the unknown opcode (40_dispatch_and_primitives.md R110, R111); CHS, CHSF, PUPI,
PTO, POP, XCH (41_stack_manipulation.md).

A meaning is the whole `command` transaction: prologue, handler, epilogue (R103). SR is decoded and
ignored (R71, log entry 25). -/

namespace Sys2Proof.Machine

/-! ### Commands with no handler body -/

/-- NOP (R110). -/
def execNop (_sr : Bool) (cls : BitVec 2) (s : State) : Result := runCommand (classMap cls) (fun s => s) s

/-- The unknown opcode: a silent no-op (R78, R111). -/
def execUnknown (_sr : Bool) (cls : BitVec 2) (s : State) : Result := runCommand (classMap cls) (fun s => s) s

/-! ### CHS, change sign -/

/-- CHS.S (R130). -/
def execChsS (_sr : Bool) (s : State) : Result :=
  runCommand .i16 (fun s =>
    let negated := cm s.tos16
    (if negated.2 then s.raise .ovf else s.setTos16 negated.1).sz) s

/-- CHS.D (R131). -/
def execChsD (_sr : Bool) (s : State) : Result :=
  runCommand .i32 (fun s =>
    let negated := cm s.tos32
    (if negated.2 then s.raise .ovf else s.setTos32 negated.1).sz) s

/-- The float change of sign: the sign bit of byte3 flips unless the leading mantissa bit is clear (R132). -/
def State.flipFloatSign (s : State) : State :=
  if (s.peek (-2)).getLsbD 7 then s.poke (-1) (s.peek (-1) ^^^ 0x80) else s

/-- CHS.F, selected by class (R132). -/
def execChsF (_sr : Bool) (cls : BitVec 2) (s : State) : Result :=
  runCommand (classMap cls) (fun s => s.flipFloatSign.sz) s

/-- CHSF, class ignored (R143). -/
def execChsf (_sr : Bool) (cls : BitVec 2) (s : State) : Result :=
  runCommand (classMap cls) (fun s => (s.latch .f32).flipFloatSign.sz) s

/-! ### PUPI, push π -/

/-- The AM9511 encoding of π in push order (R6, R133). -/
def piWire : Wire := ⟨0xDA, 0x0F, 0xC9, 0x02⟩

/-- PUPI (R133). -/
def execPupi (_sr : Bool) (cls : BitVec 2) (s : State) : Result :=
  runCommand (classMap cls) (fun s => ((s.pushWire piWire).latch .f32).sz) s

/-! ### PTO, push a copy of the top operand -/

/-- PTO.S (R134). -/
def execPtoS (_sr : Bool) (s : State) : Result := runCommand .i16 (fun s => (s.push16 s.tos16).sz) s

/-- PTO.D (R135). -/
def execPtoD (_sr : Bool) (s : State) : Result := runCommand .i32 (fun s => (s.pushWire s.tosWire).sz) s

/-- PTO.F (R136). -/
def execPtoF (_sr : Bool) (cls : BitVec 2) (s : State) : Result :=
  runCommand (classMap cls) (fun s => (s.pushWire s.tosWire).sz) s

/-! ### POP, drop the top operand -/

/-- POP.S (R137). -/
def execPopS (_sr : Bool) (s : State) : Result := runCommand .i16 (fun s => (s.moveSp (-2)).sz) s

/-- POP.D (R138). -/
def execPopD (_sr : Bool) (s : State) : Result := runCommand .i32 (fun s => (s.moveSp (-4)).sz) s

/-- POP.F (R139). -/
def execPopF (_sr : Bool) (cls : BitVec 2) (s : State) : Result :=
  runCommand (classMap cls) (fun s => (s.moveSp (-4)).sz) s

/-! ### XCH, exchange the top two operands -/

/-- TOS(4) and NOS(4) exchanged byte for byte (R141). -/
def State.exchange4 (s : State) : State :=
  (((s.swapCells (-4) (-8)).swapCells (-3) (-7)).swapCells (-2) (-6)).swapCells (-1) (-5)

/-- XCH.S (R140). -/
def execXchS (_sr : Bool) (s : State) : Result :=
  runCommand .i16 (fun s => ((s.swapCells (-2) (-4)).swapCells (-1) (-3)).sz) s

/-- XCH.D (R141). -/
def execXchD (_sr : Bool) (s : State) : Result := runCommand .i32 (fun s => s.exchange4.sz) s

/-- XCH.F (R142). -/
def execXchF (_sr : Bool) (cls : BitVec 2) (s : State) : Result :=
  runCommand (classMap cls) (fun s => s.exchange4.sz) s

end Sys2Proof.Machine
end

