-- ==== Sys2Proof/Machine/Transcendental.lean ====
section
/-! DEFINITION. SQRT, SIN, COS, TAN, ASIN, ACOS, ATAN, LOG, LN, EXP, PWR (45_transcendental.md). The spec
fixes the domain check, the code and the range check; the value is the configuration function's. -/

namespace Sys2Proof.Machine

/-- A domain rejection: the code is raised, nothing is committed, `sz` reads the operand left at TOS
(R210, decisions D10 and D19, log entries 18 and 22). -/
def State.reject (s : State) (e : ErrorCode) : State := (s.raise e).sz

/-- The value computed and committed in place (R210, R211). -/
def State.computeFn1 (s : State) (f : Fn1) (a : Rat) : State := s.fcommit1 (recordOf (Config.fn1 f a))

/-- The shape of every one-operand handler (R210). -/
def State.derived (s : State) (f : Fn1) (rejects : Rat → Bool) (e : ErrorCode) : State :=
  let s := s.latch .f32
  let a := s.tosVal
  if rejects a then s.reject e else s.computeFn1 f a

/-- LN and LOG: negative is rejected with NEG; at zero the outcome is a free value (R219, R220; log entry
6). -/
def State.logarithm (s : State) (f : Fn1) : State :=
  let s := s.latch .f32
  let a := s.tosVal
  if a < 0 then s.reject .neg
  else if a = 0 then
    let drawn := s.draw Config.logZero
    drawn.2.openCommit1 drawn.1 drawn.1.error
  else s.computeFn1 f a

/-- SQRT: NEG iff the operand is negative (R212). -/
def execSqrt (_sr : Bool) (cls : BitVec 2) (s : State) : Result :=
  runCommand (classMap cls) (fun s => s.derived .sqrt (fun a => decide (a < 0)) .neg) s

/-- SIN: unconditional (R213). -/
def execSin (_sr : Bool) (cls : BitVec 2) (s : State) : Result :=
  runCommand (classMap cls) (fun s => s.derived .sin (fun _ => false) .none) s

/-- COS: unconditional (R214). -/
def execCos (_sr : Bool) (cls : BitVec 2) (s : State) : Result :=
  runCommand (classMap cls) (fun s => s.derived .cos (fun _ => false) .none) s

/-- ATAN: unconditional (R218). -/
def execAtan (_sr : Bool) (cls : BitVec 2) (s : State) : Result :=
  runCommand (classMap cls) (fun s => s.derived .atan (fun _ => false) .none) s

/-- TAN: below `2^-12` in magnitude the operand stands, no code (R215; 90_conflicts.md C4). -/
def execTan (_sr : Bool) (cls : BitVec 2) (s : State) : Result :=
  runCommand (classMap cls) (fun s =>
    let s := s.latch .f32
    let a := s.tosVal
    if tanSmall a then s.sz else s.computeFn1 .tan a) s

/-- ASIN: ARG iff the magnitude exceeds 1 (R216). -/
def execAsin (_sr : Bool) (cls : BitVec 2) (s : State) : Result :=
  runCommand (classMap cls) (fun s => s.derived .asin (fun a => decide (1 < |a|)) .arg) s

/-- ACOS: ARG iff the magnitude exceeds 1 (R217). -/
def execAcos (_sr : Bool) (cls : BitVec 2) (s : State) : Result :=
  runCommand (classMap cls) (fun s => s.derived .acos (fun a => decide (1 < |a|)) .arg) s

/-- EXP: ARG iff the magnitude exceeds 32 (R221). -/
def execExp (_sr : Bool) (cls : BitVec 2) (s : State) : Result :=
  runCommand (classMap cls) (fun s => s.derived .exp (fun a => decide (expBound < |a|)) .arg) s

/-- A command whose operand of the logarithm may be zero, for each value of `LOG_ZERO`: refused there by
name, or run there as everywhere (R219, R220, R222). -/
def atLogZero (value : LogZeroRule) (name : String) (isZero : Bool) (runs : Result) : Result :=
  match value with
  | .refuse => if isZero then .refused (.logarithmOfZero name) else runs
  | .free => runs

/-- LN and LOG, for each value of `LOG_ZERO` (R219, R220). -/
def logarithmUnder (value : LogZeroRule) (name : String) (f : Fn1) (cls : BitVec 2) (s : State) : Result :=
  atLogZero value name (decide (s.tosVal = 0)) (runCommand (classMap cls) (fun s => s.logarithm f) s)

/-- LOG (R219). -/
def execLog (_sr : Bool) (cls : BitVec 2) (s : State) : Result := logarithmUnder logZeroRule "LOG" .log cls s

/-- LN (R220). -/
def execLn (_sr : Bool) (cls : BitVec 2) (s : State) : Result := logarithmUnder logZeroRule "LN" .ln cls s

/-- The handler of PWR, `B^A`. First NEG iff the base is negative; at base zero the outcome is a free
value; then ARG iff the product `A·ln B` exceeds 32 in magnitude; then the value, range-checked and
committed over both operands (R222, R311; log entry 6). -/
def State.power (s : State) : State :=
  let s := s.latch .f32
  let (b, a) := s.floatOperands
  if b < 0 then s.reject .neg
  else if b = 0 then
    let drawn := s.draw Config.logZero
    drawn.2.openCommit2 drawn.1 drawn.1.error
  else if expBound < |Config.fn2 .pwrArg b a| then s.reject .arg
  else s.fcommit2 (recordOf (Config.fn2 .pwr b a))

/-- PWR, for each value of `LOG_ZERO`: "if b == 0 then refuse" under the value `refuse` (R222). -/
def powerUnder (value : LogZeroRule) (cls : BitVec 2) (s : State) : Result :=
  atLogZero value "PWR" (decide (s.floatOperands.1 = 0)) (runCommand (classMap cls) State.power s)

/-- PWR (R222). -/
def execPwr (_sr : Bool) (cls : BitVec 2) (s : State) : Result := powerUnder logZeroRule cls s

end Sys2Proof.Machine
end

