-- ==== Sys2Proof/Machine/Dispatch.lean ====
section
/-! DEFINITION. The dispatcher's routing: one arm per row of spec/opcode_table.json, in the table's
order (R102). Each meaning is the whole command transaction (R103). -/

namespace Sys2Proof.Machine
open Sys2Proof

/-- The outcome of a command on a state (R103). -/
def exec (i : Instr) (s : State) : Host.Outcome State Fault Refusal :=
  match i with
  | .nop sr cls => Sys2Proof.Machine.execNop sr cls s
  | .sqrt sr cls => Sys2Proof.Machine.execSqrt sr cls s
  | .sin sr cls => Sys2Proof.Machine.execSin sr cls s
  | .cos sr cls => Sys2Proof.Machine.execCos sr cls s
  | .tan sr cls => Sys2Proof.Machine.execTan sr cls s
  | .asin sr cls => Sys2Proof.Machine.execAsin sr cls s
  | .acos sr cls => Sys2Proof.Machine.execAcos sr cls s
  | .atan sr cls => Sys2Proof.Machine.execAtan sr cls s
  | .log sr cls => Sys2Proof.Machine.execLog sr cls s
  | .ln sr cls => Sys2Proof.Machine.execLn sr cls s
  | .exp sr cls => Sys2Proof.Machine.execExp sr cls s
  | .pwr sr cls => Sys2Proof.Machine.execPwr sr cls s
  | .addS sr => Sys2Proof.Machine.execAddS sr s
  | .addD sr => Sys2Proof.Machine.execAddD sr s
  | .addReserved sr cls => Sys2Proof.Machine.execAddReserved sr cls s
  | .subS sr => Sys2Proof.Machine.execSubS sr s
  | .subD sr => Sys2Proof.Machine.execSubD sr s
  | .subReserved sr cls => Sys2Proof.Machine.execSubReserved sr cls s
  | .mulS sr => Sys2Proof.Machine.execMulS sr s
  | .mulD sr => Sys2Proof.Machine.execMulD sr s
  | .mulReserved sr cls => Sys2Proof.Machine.execMulReserved sr cls s
  | .divS sr => Sys2Proof.Machine.execDivS sr s
  | .divD sr => Sys2Proof.Machine.execDivD sr s
  | .divReserved sr cls => Sys2Proof.Machine.execDivReserved sr cls s
  | .fadd sr cls => Sys2Proof.Machine.execFadd sr cls s
  | .fsub sr cls => Sys2Proof.Machine.execFsub sr cls s
  | .fmul sr cls => Sys2Proof.Machine.execFmul sr cls s
  | .fdiv sr cls => Sys2Proof.Machine.execFdiv sr cls s
  | .chsS sr => Sys2Proof.Machine.execChsS sr s
  | .chsD sr => Sys2Proof.Machine.execChsD sr s
  | .chsF sr cls => Sys2Proof.Machine.execChsF sr cls s
  | .chsf sr cls => Sys2Proof.Machine.execChsf sr cls s
  | .muuS sr => Sys2Proof.Machine.execMuuS sr s
  | .muuD sr => Sys2Proof.Machine.execMuuD sr s
  | .muuReserved sr cls => Sys2Proof.Machine.execMuuReserved sr cls s
  | .ptoS sr => Sys2Proof.Machine.execPtoS sr s
  | .ptoD sr => Sys2Proof.Machine.execPtoD sr s
  | .ptoF sr cls => Sys2Proof.Machine.execPtoF sr cls s
  | .popS sr => Sys2Proof.Machine.execPopS sr s
  | .popD sr => Sys2Proof.Machine.execPopD sr s
  | .popF sr cls => Sys2Proof.Machine.execPopF sr cls s
  | .xchS sr => Sys2Proof.Machine.execXchS sr s
  | .xchD sr => Sys2Proof.Machine.execXchD sr s
  | .xchF sr cls => Sys2Proof.Machine.execXchF sr cls s
  | .pupi sr cls => Sys2Proof.Machine.execPupi sr cls s
  | .unknown sr cls => Sys2Proof.Machine.execUnknown sr cls s
  | .fltd sr cls => Sys2Proof.Machine.execFltd sr cls s
  | .flts sr cls => Sys2Proof.Machine.execFlts sr cls s
  | .fixd sr cls => Sys2Proof.Machine.execFixd sr cls s
  | .fixs sr cls => Sys2Proof.Machine.execFixs sr cls s

end Sys2Proof.Machine
end

