-- ==== Sys2Proof/Machine/Transactions.lean ====
section
/-! DEFINITION. The five host transactions (40_dispatch_and_primitives.md R103 to R114), each one atomic
step (R58). -/

namespace Sys2Proof.Machine

/-- A byte handed back to the host. -/
def State.give (s : State) (b : Byte) : State := { s with returned := s.returned ++ [b] }

/-- `push(byte)`: only the cell at the pointer and the pointer change (R55, R104; log entry 23). -/
def transactPush (b : Byte) (s : State) : Result := .next (s.pushByte b)

/-- `pop() -> byte`: only the pointer changes; the cell keeps its byte (R55, R105; log entry 23). -/
def transactPop (s : State) : Result :=
  let popped := s.popByte
  .next (popped.2.give popped.1)

/-- `status() -> byte`: the register as it stands; nothing changes (R108). -/
def transactStatus (s : State) : Result := .next (s.give s.status)

/-- `command(byte)`: the byte is consumed in the transaction that delivers it (R23, R62, R103). -/
def transactCommand (c : Byte) (s : State) : Result := exec (decodeByte c) s

/-- `reset()`: every piece of the device's state to its reset value (R113, R33). The host's stream, what it
has been returned and the count of free values are not the device's and stay. -/
def transactReset (s : State) : Result :=
  .next { State.reset with pending := s.pending, returned := s.returned, draws := s.draws }

/-- One host transaction (R114). -/
def transact (t : Transaction) (s : State) : Result :=
  match t with
  | .push b => transactPush b s
  | .pop => transactPop s
  | .status => transactStatus s
  | .command c => transactCommand c s
  | .reset => transactReset s

/-- The next transaction of the host's stream, or, with none pending, idleness: "Between transactions the
block is idle and keeps all its state" (R315; log entry 1). -/
def nextTransaction (s : State) : Result :=
  match s.pending with
  | [] => .next s
  | t :: rest => transact t { s with pending := rest }

/-- The command byte of a table word: the bits above `nbits`, and above the one byte of a command, are
not there. -/
def commandOfWord (nbits w : Nat) : Byte := BitVec.ofNat 8 (w % 2 ^ nbits)

end Sys2Proof.Machine
end

