-- ==== Sys2Proof/Machine/Step.lean ====
section
/-! DEFINITION. One step: one host transaction. -/

namespace Sys2Proof.Machine

/-- One step of the device: the first transaction of the host's stream (R58, R114). -/
def step (s : State) : Host.Outcome State Fault Refusal := nextTransaction s

/-- `s` with a command at the head of the host's stream, where `step` takes it next (log entry 1). -/
def State.withFetchWord (s : State) (nbits w : Nat) : State :=
  { s with pending := .command (commandOfWord nbits w) :: s.pending }

end Sys2Proof.Machine
end

