-- ==== Sys2Proof/Safety.lean ====
section
/-! DEFINITION. The terms the statements use: the invariant of every state, what a command may change, the
status byte of a finished command, and bytes moved through the host's data point. -/

namespace Sys2Proof
open Machine

/-- What holds after every transaction: the cells are in canonical form, BUSY is 0 and ERROR holds one of
the six codes (10_state.md R34; that `sp` is below 16 and `cls` one of three is their types'). -/
def Inv (s : State) : Prop :=
  Memory.wf s.x ∧ statusBusy s.status = false ∧ ∃ e, statusError s.status = errCode e

/-- What a command changes, and that it changes nothing else: the pointer moves by `d`, the latch ends as
`cls`, `n` free values are drawn, every cell keeps its byte but those at the offsets `cells` from the
pointer BEFORE the command, and the host's stream and returned bytes stay. The status byte is stated
beside it. -/
def Changes (s t : State) (d : Int) (cells : List Int) (cls : OpClass) (n : Nat) : Prop :=
  t.sp = s.sp + BitVec.ofInt 4 d ∧ t.cls = cls ∧ t.draws = s.draws + n ∧
    (∀ a : Nat, (∀ k ∈ cells, a ≠ s.idx k) → t.x.read a = s.x.read a) ∧
    t.pending = s.pending ∧ t.returned = s.returned

/-- The status byte of a finished command: BUSY 0 and four fields (R24, R101). -/
def finalStatus (sign zero : Bool) (e : ErrorCode) (carry : Bool) : BitVec 8 :=
  statusPack false sign zero (errCode e) carry

/-- The status byte of a finished command whose SIGN and ZERO are those of a wire float (R107). -/
def floatStatus (w : Wire) (e : ErrorCode) : BitVec 8 :=
  finalStatus (w.b3.getLsbD 7) (!w.b2.getLsbD 7) e false

/-- A domain rejection with code `e`, or an operand that stands as its own result with code NONE: stack and
pointer as before, the flags those of the float still at TOS (R210, R215; decisions D10, D18, D19). -/
def LeavesOperand (s t : State) (e : ErrorCode) : Prop :=
  Changes s t 0 [] .f32 0 ∧ t.status = floatStatus s.tosWire e

/-- A float result `w` with code `e` stands where the operand of a one-operand function was (R210). -/
def ReplacesTop (s t : State) (w : Wire) (e : ErrorCode) (n : Nat) : Prop :=
  Changes s t 0 [-4, -3, -2, -1] .f32 n ∧ t.tosWire = w ∧ t.status = floatStatus w e

/-- A float result `w` with code `e` stands where the lower operand of a two-operand command was, the upper
one consumed (R193). -/
def ReplacesBoth (s t : State) (w : Wire) (e : ErrorCode) (n : Nat) : Prop :=
  Changes s t (-4) [-8, -7, -6, -5] .f32 n ∧ t.tosWire = w ∧ t.status = floatStatus w e

/-- Bytes pushed one after another (R104). -/
def pushAll (s : State) (bs : List Byte) : State := bs.foldl State.pushByte s

/-- `n` bytes popped one after another, in the order they come, and the state left (R105). -/
def popMany : Nat → State → List Byte × State
  | 0, s => ([], s)
  | n + 1, s =>
    let rest := popMany n s.popByte.2
    (s.popByte.1 :: rest.1, rest.2)

/-- The commands the reserved rows stand for (R79). -/
def Instr.reservedName : Instr → Option String
  | .addReserved _ _ => some "ADD.reserved"
  | .subReserved _ _ => some "SUB.reserved"
  | .mulReserved _ _ => some "MUL.reserved"
  | .divReserved _ _ => some "DIV.reserved"
  | .muuReserved _ _ => some "MUU.reserved"
  | _ => none

/-- ADD or SUB, of either width: the commands that write CARRY (R25). -/
def Instr.writesCarry : Instr → Bool
  | .addS _ | .addD _ | .subS _ | .subD _ => true
  | _ => false

/-- The commands that never raise a code (R301, last sentence). -/
def Instr.neverRaises : Instr → Bool
  | .nop _ _ | .unknown _ _ | .pupi _ _ => true
  | .ptoS _ | .ptoD _ | .ptoF _ _ | .popS _ | .popD _ | .popF _ _ => true
  | .xchS _ | .xchD _ | .xchF _ _ | .chsF _ _ | .chsf _ _ => true
  | .muuS _ | .muuD _ | .flts _ _ | .fltd _ _ => true
  | _ => false

/-- NOP and the unknown opcode: the handlers that do not call `sz` (R109). -/
def Instr.hasNoHandler : Instr → Bool
  | .nop _ _ | .unknown _ _ => true
  | _ => false

end Sys2Proof
end

