-- ==== Sys2Proof/Certificates/Slice0/Obligations.lean ====
section
/-! DEFINITION. The statements for the provers, about every state and every operand. Where a statement
rests on a decision the spec marks as its own or on a choice of the model, its docstring names the log
entry. -/

open Sys2Proof Sys2Proof.Machine

/-- For every well-formed command of every row, with SR and CLASS at every value its row leaves free, the
decoder reads from the encoder's byte exactly that command: under the decided numbers, and under every table
that gives different handlers different numbers (a model takes the table as an argument, R76). The decided
numbers and the class map are the parameters OPC and CLASS_MAP (log entries 9 and 8). -/
def Obligations.DecodeOfEncodeIsTheCommand : Prop :=
    (∀ i : Instr, i.wellFormed = true → decode (encode i) = .ok i) ∧
    ∀ (table : OpcodeTable) (i : Instr), Function.Injective table → i.wellFormed = true →
      decodeUnder table (encodeUnder table i) = .ok i

/-- Decoding is total: every byte decodes to a well-formed command, and encoding that command gives the byte
back, so no two bytes share a command. The numbers are log entries 8 and 9's. -/
def Obligations.EveryByteIsOneWellFormedCommand : Prop :=
    ∀ c : Byte, (decodeByte c).wellFormed = true ∧ encode (decodeByte c) = [c]

/-- A byte of each family, from the lists of the spec's opcode map: NOP 00, SQRT 01, ADD.S 6C, ADD.D 4C, FADD
10, CHS.F 34, CHSF 75, POP.S 78, XCH.D 59, PUPI with SR 9A, the unknown opcode 5B, FLTS 1D, FIXD 1E, and the
reserved 2C. The numbers are log entries 8 and 9's. -/
def Obligations.WrittenOutBytesDecode : Prop :=
    decode [0x00] = .ok (.nop false 0b00) ∧ decode [0x01] = .ok (.sqrt false 0b00) ∧
    decode [0x6C] = .ok (.addS false) ∧ decode [0x4C] = .ok (.addD false) ∧
    decode [0x10] = .ok (.fadd false 0b00) ∧ decode [0x34] = .ok (.chsF false 0b01) ∧
    decode [0x75] = .ok (.chsf false 0b11) ∧ decode [0x78] = .ok (.popS false) ∧
    decode [0x59] = .ok (.xchD false) ∧ decode [0x9A] = .ok (.pupi true 0b00) ∧
    decode [0x5B] = .ok (.unknown false 0b10) ∧ decode [0x1D] = .ok (.flts false 0b00) ∧
    decode [0x1E] = .ok (.fixd false 0b00) ∧ decode [0x2C] = .ok (.addReserved false 0b01)

/-- SR is decoded and ignored (decision D22, log entry 25): the command transaction of a byte and of the byte
with bit 7 flipped have the same outcome on every state. -/
def Obligations.ServiceRequestBitIsIgnored : Prop :=
    ∀ (c : Byte) (s : State), transactCommand (c ^^^ 0x80) s = transactCommand c s

/-- The five reserved rows are refused on every state, each under its row's name, and every byte whose opcode is
0C, 0D, 0E, 0F or 16 with CLASS bit 6 clear is one of them (decision D9, log entry 17; the numbers are log
entries 8 and 9's). -/
def Obligations.ReservedBytesAreRefused : Prop :=
    (∀ (i : Instr) (name : String) (s : State), i.reservedName = some name →
      exec i s = .refused (.reservedEncoding name)) ∧
    ∀ c : Byte, opcodeField c ∈ [0x0C, 0x0D, 0x0E, 0x0F, 0x16] → (classField c).getLsbD 1 = false →
      (decodeByte c).reservedName.isSome = true

/-- When the next transaction of the host's stream is a command whose byte decodes to i, the step is exec of i
on the state with that transaction consumed; withFetchWord puts a table word's command there (the stream is
the model's own field, log entry 1). -/
def Obligations.StepRunsTheDecodedCommand : Prop :=
    (∀ (s : State) (c : Byte) (rest : List Transaction) (i : Instr), s.pending = .command c :: rest →
      decode [c] = .ok i → step s = exec i { s with pending := rest }) ∧
    ∀ (s : State) (w : Nat) (i : Instr), decodeTableWord 8 w = some i → step (s.withFetchWord 8 w) = exec i s

/-- Between transactions the block is idle and keeps all its state; that the model steps at all when the host
issues nothing is its own choice (log entry 1). -/
def Obligations.IdleBlockKeepsItsState : Prop :=
    ∀ s : State, s.pending = [] → step s = .next s

/-- The push transaction writes the byte into the cell at the pointer, whatever is there, and advances the
pointer by 1 mod 16; every other cell stays (R104). That the status and the latch stay is decision D24 (log
entry 23); the stream and the returned bytes are the model's own fields (log entry 1), the draws too (log
entry 2). -/
def Obligations.PushStoresAndAdvances : Prop :=
    ∀ (s : State) (b : Byte) (rest : List Transaction), s.pending = .push b :: rest →
      ∃ t, step s = .next t ∧ t.x.read s.sp.toNat = b ∧ t.sp = s.sp + 1 ∧
        (∀ a : Nat, a ≠ s.sp.toNat → t.x.read a = s.x.read a) ∧
        t.status = s.status ∧ t.cls = s.cls ∧ t.pending = rest ∧ t.returned = s.returned ∧ t.draws = s.draws

/-- The pop transaction retreats the pointer by 1 mod 16 and hands the host the byte of the cell it then names;
the cell is not cleared (R105). That the status and the latch stay too is decision D24 (log entry 23); the
stream and the list of returned bytes are the model's own fields (log entry 1). -/
def Obligations.PopRetreatsAndReturns : Prop :=
    ∀ (s : State) (rest : List Transaction), s.pending = .pop :: rest →
      step s = .next { s with pending := rest, sp := s.sp - 1,
                              returned := s.returned ++ [s.x.read (s.sp - 1).toNat] }

/-- In every state that meets the invariant, the status transaction hands the host the status register, bit 7 of
which is 0, and changes nothing else (R108). That the register and the latch stay is also decision D24 (log
entry 23), that BUSY is 0 between steps is log entry 29, and the stream and the list of returned bytes are
the model's own fields (log entry 1). -/
def Obligations.StatusReadChangesNothing : Prop :=
    ∀ (s : State) (rest : List Transaction), Inv s → s.pending = .status :: rest →
      step s = .next { s with pending := rest, returned := s.returned ++ [s.status] } ∧
        s.status.getLsbD 7 = false

/-- The reset transaction leaves x[0..15] = 0, sp = 0, status = 0x00 and cls = F32, whatever the state was
(R113). That the latch's zero is read as F32 is decision D21 (log entry 24). The host's stream and what it
was returned are not the device's and stay (log entry 1), as does the count of draws (log entry 2). -/
def Obligations.ResetZeroesTheDevice : Prop :=
    ∀ (s : State) (rest : List Transaction), s.pending = .reset :: rest →
      ∃ t, step s = .next t ∧ (∀ a : Nat, t.x.read a = 0x00) ∧ t.sp = 0 ∧ t.status = 0x00 ∧ t.cls = .f32 ∧
        t.pending = rest ∧ t.returned = s.returned ∧ t.draws = s.draws

/-- State.reset holds the values the spec's reset table gives: each cell 0x00, sp 0, status 0x00 (so ZERO is 0
although the top of stack is zero), cls F32, whose stored bits are 00 (R33). The latch's two clauses are
decision D21 (log entry 24). -/
def Obligations.ResetStateIsAllZero : Prop :=
    (∀ a : Nat, State.reset.x.read a = 0x00) ∧ State.reset.sp = 0 ∧ State.reset.status = 0x00 ∧
    State.reset.cls = .f32 ∧ classBits State.reset.cls = 0b00

/-- LIFO and silent wraparound in one: after pushing any list of bytes, n pops (n at most 16 and at most the
number pushed) return the last n bytes in reverse order, and the status never changes. With more than 16
pushed the oldest are lost. -/
def Obligations.NewestBytesPopFirst : Prop :=
    ∀ (s : State) (bs : List Byte) (n : Nat), n ≤ 16 → n ≤ bs.length →
      (popMany n (pushAll s bs)).1 = bs.reverse.take n ∧
        (popMany n (pushAll s bs)).2.status = s.status ∧
        (popMany n (pushAll s bs)).2.sp = s.sp + BitVec.ofInt 4 (bs.length - n)

/-- BUSY 0 and a legal ERROR code at State.reset (R33, R34; BUSY between steps is log entry 29), and the list of
cells in canonical form, which is the model's own representation (log entry 28). -/
def Obligations.ResetMeetsTheInvariant : Prop :=
    Inv State.reset

/-- For every state that meets the invariant, reached or not, if the step answers a next state, that state meets
it: after every transaction BUSY is 0 and ERROR is one of the six codes (R34, whose bounds on sp and cls
hold by their types; BUSY between steps is log entry 29), and the list of cells is in canonical form, which
is the model's own representation (log entry 28). -/
def Obligations.EveryTransactionKeepsTheInvariant : Prop :=
    ∀ s t : State, Inv s → step s = .next t → Inv t

/-- Every transaction on every state answers a next state, except a command whose byte is reserved (decision D9,
log entry 17): no operand, pointer or status stops the device. That LN and LOG of zero, PWR with base zero
and a configuration value beyond one fold go on is the model's choice, where the spec suggests a refusal
(log entries 6 and 7). -/
def Obligations.OnlyReservedCommandsStop : Prop :=
    ∀ s : State, (∃ t, step s = .next t) ∨
      ∃ c rest name, s.pending = .command c :: rest ∧ (decodeByte c).reservedName = some name ∧
        step s = .refused (.reservedEncoding name)

/-- Whatever the state before, a finished command with CARRY set was an ADD or a SUB (decision D7, log entry
27). -/
def Obligations.OnlyAddAndSubSetCarry : Prop :=
    ∀ (i : Instr) (s t : State), exec i s = .next t → statusCarry t.status = true → i.writesCarry = true

/-- For every command but NOP and the unknown opcode, on success and on every error path, SIGN is bit 7 of the
byte below the pointer and ZERO the class-dependent test of the latch as it then stands (decision D10, log
entry 18; it holds of the free outcomes too, log entries 6 and 7); after NOP and the unknown opcode the
whole status is 0x00 (R110, R111). -/
def Obligations.FlagsDescribeTheTopOfStack : Prop :=
    ∀ (i : Instr) (s t : State), exec i s = .next t →
      if i.hasNoHandler then t.status = 0x00
      else statusSign t.status = (t.peek (-1)).getLsbD 7 ∧ statusZero t.status = t.zeroBelow t.cls

/-- No handler reads any flag (R25), and the prologue writes status and latch before any handler reads the latch
(R28, R100): with any other status byte and any other latch the command has the same outcome. -/
def Obligations.EarlierStatusNeverMatters : Prop :=
    ∀ (i : Instr) (s : State) (v : BitVec 8) (c : OpClass), exec i { s with status := v, cls := c } = exec i s

/-- NOP, the unknown opcode, PUPI, PTO, POP, XCH, CHS.F, CHSF, MUU, FLTS and FLTD end with ERROR NONE on every
state. -/
def Obligations.SilentCommandsRaiseNoCode : Prop :=
    ∀ (i : Instr) (s t : State), i.neverRaises = true → exec i s = .next t →
      statusError t.status = errCode .none

/-- Every command leaves every cell outside the twelve at offsets -8 .. 3 from the pointer before it, and never
touches the host's stream or returned bytes. -/
def Obligations.CommandsReachTwelveCells : Prop :=
    ∀ (i : Instr) (s t : State), exec i s = .next t →
      (∀ a : Nat, (∀ k ∈ ([-8, -7, -6, -5, -4, -3, -2, -1, 0, 1, 2, 3] : List Int), a ≠ s.idx k) →
        t.x.read a = s.x.read a) ∧ t.pending = s.pending ∧ t.returned = s.returned

/-- SIGN is bit 7 of at(-1); ZERO is the OR of two bytes being 0 for I16, of four for I32, and bit 7 of at(-2)
being clear for F32; the other fields and all other state stay. -/
def Obligations.FlagRuleReadsBelowThePointer : Prop :=
    ∀ s : State,
      let sign := (s.x.read (s.idx (-1))).getLsbD 7
      let zero := match s.cls with
        | .i16 => decide (s.x.read (s.idx (-1)) = 0 ∧ s.x.read (s.idx (-2)) = 0)
        | .i32 => decide (s.x.read (s.idx (-1)) = 0 ∧ s.x.read (s.idx (-2)) = 0 ∧
            s.x.read (s.idx (-3)) = 0 ∧ s.x.read (s.idx (-4)) = 0)
        | .f32 => !(s.x.read (s.idx (-2))).getLsbD 7
      s.sz = { s with status := (statusPack (statusBusy s.status) sign zero (statusError s.status)
                        (statusCarry s.status)) }

/-- After raise E the ERROR field holds E's code; BUSY, SIGN, ZERO and CARRY and every other piece of state are
as before. -/
def Obligations.RaiseWritesTheErrorFieldOnly : Prop :=
    ∀ (s : State) (e : ErrorCode), statusError (s.raise e).status = errCode e ∧
      statusBusy (s.raise e).status = statusBusy s.status ∧ statusSign (s.raise e).status = statusSign s.status ∧
      statusZero (s.raise e).status = statusZero s.status ∧ statusCarry (s.raise e).status = statusCarry s.status ∧
      { s.raise e with status := s.status } = s

/-- With a carry input the result is the sum mod 2^16 and the carry says whether it reached 2^16; add16 is the
case without. -/
def Obligations.SixteenBitSumAndCarry : Prop :=
    (∀ (a b : Word16) (cin : Bool), (add16c a b cin).1 = a + b + (BitVec.ofBool cin).zeroExtend 16 ∧
      ((add16c a b cin).2 = true ↔ 2 ^ 16 ≤ a.toNat + b.toNat + cin.toNat)) ∧
    ∀ a b : Word16, add16 a b = (a + b, decide (2 ^ 16 ≤ a.toNat + b.toNat))

/-- add32 and sub32, composed of two 16-bit calls with the inner carry or borrow propagated, give the 32-bit sum
and difference, the carry out of bit 31 and the unsigned borrow (the borrow as CARRY is decision D6, log
entry 12). -/
def Obligations.HalvesComposeToWholeSums : Prop :=
    ∀ a b : Word32, add32 a b = (a + b, decide (2 ^ 32 ≤ a.toNat + b.toNat)) ∧
      sub32 a b = (a - b, decide (a.toNat < b.toNat))

/-- oadd of the wrapped sum is true iff the exact signed sum leaves the width's range, and osub likewise for the
difference, at 16 and 32 bits. -/
def Obligations.SignBitRulesAreSignedOverflow : Prop :=
    (∀ a b : Word16, (oadd a b (a + b) = true ↔ a.toInt + b.toInt < -2 ^ 15 ∨ 2 ^ 15 ≤ a.toInt + b.toInt) ∧
      (osub a b (a - b) = true ↔ a.toInt - b.toInt < -2 ^ 15 ∨ 2 ^ 15 ≤ a.toInt - b.toInt)) ∧
    ∀ a b : Word32, (oadd a b (a + b) = true ↔ a.toInt + b.toInt < -2 ^ 31 ∨ 2 ^ 31 ≤ a.toInt + b.toInt) ∧
      (osub a b (a - b) = true ↔ a.toInt - b.toInt < -2 ^ 31 ∨ 2 ^ 31 ≤ a.toInt - b.toInt)

/-- The result is (2^w - v) mod 2^w and the indicator is true exactly for the most negative value, whose
negation is itself. -/
def Obligations.NegationLeavesMostNegative : Prop :=
    (∀ v : Word16, cm v = (-v, decide (v = 0x8000))) ∧ (∀ v : Word32, cm v = (-v, decide (v = 0x80000000))) ∧
      (cm (0x8000 : Word16)).1 = 0x8000 ∧ (cm (0x80000000 : Word32)).1 = 0x80000000

/-- mul8, mul16 (four 8 x 8 partials) and mul32 (four 16 x 16 partials) give the exact unsigned product, and
mull and mulu its halves with the overflow of the low one. -/
def Obligations.PartialProductsAreExact : Prop :=
    (∀ a b : Byte, (mul8 a b).toNat = a.toNat * b.toNat) ∧
    (∀ a b : Word16, (mul16 a b).toNat = a.toNat * b.toNat) ∧
    (∀ a b : Word32, (mul32 a b).toNat = a.toNat * b.toNat) ∧
    (∀ a b : Word16, (mulu16 a b).toNat = a.toNat * b.toNat / 2 ^ 16 ∧
      (mull16 a b).1.toNat = a.toNat * b.toNat % 2 ^ 16 ∧ ((mull16 a b).2 = true ↔ 2 ^ 16 ≤ a.toNat * b.toNat)) ∧
    ∀ a b : Word32, (mulu32 a b).toNat = a.toNat * b.toNat / 2 ^ 32 ∧
      (mull32 a b).1.toNat = a.toNat * b.toNat % 2 ^ 32 ∧ ((mull32 a b).2 = true ↔ 2 ^ 32 ≤ a.toNat * b.toNat)

/-- High and low half together are the exact product of the two signed values; the overflow indicator says that
the product of the magnitudes reaches 2^w (that rule is decision D11, log entry 13). -/
def Obligations.SignedProductHasTrueHalves : Prop :=
    (∀ b a : Word16, ((smul16 b a).hi ++ (smul16 b a).lo).toInt = b.toInt * a.toInt ∧
      ((smul16 b a).ovf = true ↔ 2 ^ 16 ≤ b.toInt.natAbs * a.toInt.natAbs)) ∧
    ∀ b a : Word32, ((smul32 b a).hi ++ (smul32 b a).lo).toInt = b.toInt * a.toInt ∧
      ((smul32 b a).ovf = true ↔ 2 ^ 32 ≤ b.toInt.natAbs * a.toInt.natAbs)

/-- For a zero divisor there is no quotient; otherwise it is the truncated signed quotient, but for the most
negative value divided by -1, which reduces to the most negative value. It is negative exactly when the
signs differ and it is not zero, that case apart. -/
def Obligations.DivisionTruncatesTowardZero : Prop :=
    (∀ b : Word16, divTrunc b 0 = none) ∧ (∀ b : Word32, divTrunc b 0 = none) ∧
    (∀ b a : Word16, a ≠ 0 → ∃ q, divTrunc b a = some q ∧
      if b = 0x8000 ∧ a = 0xFFFF then q = 0x8000
      else q.toInt = b.toInt.tdiv a.toInt ∧ (q.toInt < 0 ↔ q ≠ 0 ∧ b.msb ≠ a.msb)) ∧
    ∀ b a : Word32, a ≠ 0 → ∃ q, divTrunc b a = some q ∧
      if b = 0x80000000 ∧ a = 0xFFFFFFFF then q = 0x80000000
      else q.toInt = b.toInt.tdiv a.toInt ∧ (q.toInt < 0 ↔ q ≠ 0 ∧ b.msb ≠ a.msb)

/-- For each of the four formats, every 4-byte input that is not zero by the format's rule (and for IEEE754 has
not the all-ones exponent, decision D26, log entry 16) comes back byte for byte; an input that is zero by
the rule comes back as four zero bytes (the byte places of two formats are decision D25, log entry 26). -/
def Obligations.WireBytesSurviveTheRoundTrip : Prop :=
    ∀ w : Wire,
      canonToAm (amToCanon w) = some (if w.b2.getLsbD 7 then w else Wire.zero) ∧
      canonToHitech (hitechToCanon w) = some (if w.b2.getLsbD 7 then w else Wire.zero) ∧
      canonToMs (msToCanon w) = some (if w.b3 = 0 then Wire.zero else w) ∧
      let e : BitVec 8 := w.b3.extractLsb' 0 7 ++ w.b2.extractLsb' 7 1
      (ieeeToCanon w).bind canonToIeee = if e = 0 then some Wire.zero else if e = 255 then none else some w

/-- For each of the four formats: a normal record whose exponent is in the format's range (-65 .. 62 for AM9511
and HiTech C, -126 .. 127 for IEEE754 single, -128 .. 126 for Microsoft Basic) has an encoding, and decoding
it gives the record; a zero record has an encoding, and decoding it gives the all-zero record (the byte
places of two formats are decision D25, log entry 26). -/
def Obligations.RecordsSurviveTheRoundTrip : Prop :=
    ∀ c : Canon,
      (c.isNormal = true →
        (-65 ≤ c.exponent → c.exponent ≤ 62 → ∃ w, canonToAm c = some w ∧ amToCanon w = c) ∧
        (-126 ≤ c.exponent → c.exponent ≤ 127 → ∃ w, canonToIeee c = some w ∧ ieeeToCanon w = some c) ∧
        (-128 ≤ c.exponent → c.exponent ≤ 126 → ∃ w, canonToMs c = some w ∧ msToCanon w = c) ∧
        (-65 ≤ c.exponent → c.exponent ≤ 62 → ∃ w, canonToHitech c = some w ∧ hitechToCanon w = c)) ∧
      (c.isNormal = false →
        (∃ w, canonToAm c = some w ∧ amToCanon w = Canon.zero) ∧
        (∃ w, canonToIeee c = some w ∧ ieeeToCanon w = some Canon.zero) ∧
        (∃ w, canonToMs c = some w ∧ msToCanon w = Canon.zero) ∧
        ∃ w, canonToHitech c = some w ∧ hitechToCanon w = Canon.zero)

/-- The accepted canonical exponents are -65 .. 62 for AM9511 and HiTech C, -126 .. 127 for IEEE754 single, -128
.. 126 for Microsoft Basic; a zero record always encodes, to four zero bytes (decision D25, log entry 26). -/
def Obligations.EncodersFailExactlyOutOfRange : Prop :=
    ∀ c : Canon,
      (c.isNormal = false → canonToAm c = some Wire.zero ∧ canonToIeee c = some Wire.zero ∧
        canonToMs c = some Wire.zero ∧ canonToHitech c = some Wire.zero) ∧
      (c.isNormal = true →
        ((canonToAm c).isSome = true ↔ -65 ≤ c.exponent ∧ c.exponent ≤ 62) ∧
        ((canonToIeee c).isSome = true ↔ -126 ≤ c.exponent ∧ c.exponent ≤ 127) ∧
        ((canonToMs c).isSome = true ↔ -128 ≤ c.exponent ∧ c.exponent ≤ 126) ∧
        ((canonToHitech c).isSome = true ↔ -65 ≤ c.exponent ∧ c.exponent ≤ 62))

/-- AM9511: 0 when the leading mantissa bit is clear, whatever the other bits, else the value its sign, 24-bit
mantissa and sign-extended 7-bit exponent give. HiTech C: likewise, with a 7-bit exponent of excess 65.
IEEE754 single: 0 for a zero exponent field, no record for the all-ones field (decision D26, log entry 16),
else the value of its sign, 23-bit fraction and exponent of bias 127. Microsoft Basic: 0 for a zero exponent
byte, else the value of its sign, 23-bit fraction and exponent of bias 129. The byte places of the last two
named formats, Microsoft Basic and HiTech C, are decision D25 (log entry 26). -/
def Obligations.AmFloatHasItsValue : Prop :=
    ∀ w : Wire,
      let negateIf (negative : Bool) (m : ℚ) : ℚ := if negative then -m else m
      let fraction : ℚ := ((w.b2.extractLsb' 0 7 ++ w.b1 ++ w.b0).toNat : ℚ) / 2 ^ 23
      let e : BitVec 8 := w.b3.extractLsb' 0 7 ++ w.b2.extractLsb' 7 1
      (amToCanon w).val = (if w.b2.getLsbD 7 then
        negateIf (w.b3.getLsbD 7) (((w.b2 ++ w.b1 ++ w.b0).toNat : ℚ) / 2 ^ 24 *
          (2 : ℚ) ^ (w.b3.extractLsb' 0 7).toInt) else 0) ∧
      (hitechToCanon w).val = (if w.b2.getLsbD 7 then
        negateIf (w.b3.getLsbD 7) (((w.b2 ++ w.b1 ++ w.b0).toNat : ℚ) / 2 ^ 23 *
          (2 : ℚ) ^ (((w.b3.extractLsb' 0 7).toNat : ℤ) - 65)) else 0) ∧
      (ieeeToCanon w).map Canon.val = (if e = 0 then some 0 else if e = 255 then none
        else some (negateIf (w.b3.getLsbD 7) ((1 + fraction) * (2 : ℚ) ^ ((e.toNat : ℤ) - 127)))) ∧
      (msToCanon w).val = if w.b3 = 0 then 0
        else negateIf (w.b2.getLsbD 7) ((1 + fraction) * (2 : ℚ) ^ ((w.b3.toNat : ℤ) - 129))

/-- For a normal record whose AM exponent ea is in -192 .. 191, the checked record encodes, its exponent field
is the low 7 bits of ea, its sign and mantissa are the record's, and the code is OVF above 63, UND below
-64, else NONE (the scale is decision D15, log entry 20). -/
def Obligations.OneFoldKeepsTheLowSevenBits : Prop :=
    ∀ c : Canon, c.isNormal = true → -192 ≤ c.exponent + 1 → c.exponent + 1 ≤ 191 →
      (range c).2 = (if 63 < c.exponent + 1 then .ovf else if c.exponent + 1 < -64 then .und else .none) ∧
      canonToAm (range c).1 = some ⟨c.mantissaLow.extractLsb' 0 8, c.mantissaLow.extractLsb' 8 8,
        c.mantissaHigh, BitVec.ofBool c.sign ++ BitVec.ofInt 7 (c.exponent + 1)⟩

/-- For every non-zero rational r with 2^k <= |r| < 2^(k+1) and every choice of FRound, the record is normal,
has r's sign, its value is a multiple of the unit of the 24-bit mantissa at k and differs from r by less
than one unit, so it is one of the two neighbours, and it is r when r is itself a multiple (R191; that
rounding is faithful and otherwise open is decision D13, log entry 3). -/
def Obligations.NormaliseIsFaithful : Prop :=
    ∀ (r : ℚ) (k : ℤ), (2 : ℚ) ^ k ≤ |r| → |r| < (2 : ℚ) ^ (k + 1) →
      (normalise r).isNormal = true ∧ ((normalise r).sign = true ↔ r < 0) ∧
      (∃ n : ℤ, (normalise r).val = n * (2 : ℚ) ^ (k - 23)) ∧ |(normalise r).val - r| < (2 : ℚ) ^ (k - 23) ∧
      ((∃ n : ℤ, r = n * (2 : ℚ) ^ (k - 23)) → (normalise r).val = r)

/-- Whatever the eight operand bytes and whatever FRound, the result of FADD, FSUB, FMUL and FDIV (by a non-zero
divisor) is brought into the exponent range by the one fold, so the encoder never fails (the rounding is
decision D13, log entry 3; the exponent scale of the range check is decision D15, log entry 20). -/
def Obligations.OneFoldSufficesForArithmetic : Prop :=
    ∀ u v : Wire,
      let b := (amToCanon u).val
      let a := (amToCanon v).val
      (encodeResult (recordOf (b + a))).1.isSome = true ∧ (encodeResult (recordOf (b - a))).1.isSome = true ∧
      (encodeResult (recordOf (b * a))).1.isSome = true ∧
      (a ≠ 0 → (encodeResult (recordOf (b / a))).1.isSome = true)

/-- The record's value is the integer, whatever FRound. -/
def Obligations.SmallIntegersConvertExactly : Prop :=
    ∀ v : ℤ, |v| < 2 ^ 24 → (intToCanon v).val = v

/-- If it answers t, t is in the signed range of w bits, is nearer zero than the value by less than 1 and has no
other sign; it fails exactly when the value is at least 2^(w-1) or at most -2^(w-1) - 1 (truncation and the
test on the truncated integer are decision D14, log entry 14). -/
def Obligations.FixingTruncatesAndRangeChecks : Prop :=
    ∀ (c : Canon) (w : Nat), 0 < w →
      (∀ t, canonToInt c w = some t → -(2 : ℤ) ^ (w - 1) ≤ t ∧ t < (2 : ℤ) ^ (w - 1) ∧
        |(t : ℚ)| ≤ |c.val| ∧ |c.val| < |(t : ℚ)| + 1 ∧ 0 ≤ (t : ℚ) * c.val) ∧
      (canonToInt c w = none ↔ (2 : ℚ) ^ (w - 1) ≤ c.val ∨ c.val ≤ -(2 : ℚ) ^ (w - 1) - 1)

/-- Both complete on every state with status 0x00, stack and pointer unchanged; the latch holds the class as
decoded (R110, R111). That the latch stays as decoded is decision D8 (log entry 19), that sz does not run is
decision D10 (log entry 18). -/
def Obligations.NopOnlyClearsTheFlags : Prop :=
    ∀ (sr : Bool) (cls : BitVec 2) (s : State),
      exec (.nop sr cls) s = .next { s with status := 0x00, cls := classMap cls } ∧
      exec (.unknown sr cls) s = .next { s with status := 0x00, cls := classMap cls }

/-- On every state: the operand at TOS becomes its two's complement negation, SIGN and ZERO are the result's and
ERROR NONE; the most negative value stays with no cell changed, SIGN set and ERROR OVF (sz on that path is
decision D10, log entry 18). -/
def Obligations.IntegerChangeSignNegates : Prop :=
    (∀ (sr : Bool) (s : State), ∃ t, exec (.chsS sr) s = .next t ∧
      if s.tos16 = 0x8000 then Changes s t 0 [] .i16 0 ∧ t.status = finalStatus true false .ovf false
      else Changes s t 0 [-2, -1] .i16 0 ∧ t.tos16 = -s.tos16 ∧
        t.status = finalStatus (-s.tos16).msb (-s.tos16 == 0) .none false) ∧
    ∀ (sr : Bool) (s : State), ∃ t, exec (.chsD sr) s = .next t ∧
      if s.tos32 = 0x80000000 then Changes s t 0 [] .i32 0 ∧ t.status = finalStatus true false .ovf false
      else Changes s t 0 [-4, -3, -2, -1] .i32 0 ∧ t.tos32 = -s.tos32 ∧
        t.status = finalStatus (-s.tos32).msb (-s.tos32 == 0) .none false

/-- On every state, only the cell below the pointer can change: its bit 7 flips when the leading mantissa bit is
set; otherwise every cell stays. ERROR is NONE always. CHSF does so whatever its class bits (decision D8,
log entry 19). -/
def Obligations.FloatChangeSignFlipsOneBit : Prop :=
    ∀ (sr : Bool) (cls : BitVec 2) (s : State),
      let w := s.tosWire
      let r := if w.b2.getLsbD 7 then { w with b3 := w.b3 ^^^ 0x80 } else w
      (isFloatClass cls = true → ∃ t, exec (.chsF sr cls) s = .next t ∧
        Changes s t 0 (if w.b2.getLsbD 7 then [-1] else []) .f32 0 ∧ t.tosWire = r ∧
        t.status = floatStatus r .none) ∧
      ∃ t, exec (.chsf sr cls) s = .next t ∧
        Changes s t 0 (if w.b2.getLsbD 7 then [-1] else []) .f32 0 ∧ t.tosWire = r ∧
        t.status = floatStatus r .none

/-- On every state the four cells from the pointer on become DA 0F C9 02, the pointer advances by 4, the status
is 0x00 and the latch F32 (class ignored is decision D8, log entry 19). -/
def Obligations.PupiPushesPi : Prop :=
    ∀ (sr : Bool) (cls : BitVec 2) (s : State), ∃ t, exec (.pupi sr cls) s = .next t ∧
      Changes s t 4 [0, 1, 2, 3] .f32 0 ∧ t.tosWire = ⟨0xDA, 0x0F, 0xC9, 0x02⟩ ∧ t.status = 0x00

/-- On every state TOS and NOS afterwards both equal TOS before, the pointer advances by the width, only the
cells from the pointer on change, and SIGN and ZERO are the copy's under the class. -/
def Obligations.PtoDuplicatesTheTop : Prop :=
    (∀ (sr : Bool) (s : State), ∃ t, exec (.ptoS sr) s = .next t ∧ Changes s t 2 [0, 1] .i16 0 ∧
      t.tos16 = s.tos16 ∧ t.nos16 = s.tos16 ∧ t.status = finalStatus s.tos16.msb (s.tos16 == 0) .none false) ∧
    (∀ (sr : Bool) (s : State), ∃ t, exec (.ptoD sr) s = .next t ∧ Changes s t 4 [0, 1, 2, 3] .i32 0 ∧
      t.tos32 = s.tos32 ∧ t.nos32 = s.tos32 ∧ t.status = finalStatus s.tos32.msb (s.tos32 == 0) .none false) ∧
    ∀ (sr : Bool) (cls : BitVec 2) (s : State), isFloatClass cls = true →
      ∃ t, exec (.ptoF sr cls) s = .next t ∧ Changes s t 4 [0, 1, 2, 3] .f32 0 ∧
        t.tosWire = s.tosWire ∧ t.nosWire = s.tosWire ∧ t.status = floatStatus s.tosWire .none

/-- On every state no cell changes, the pointer retreats by the width, and SIGN and ZERO are those of the bytes
then below it, read under the class of the POP, whatever their real type. -/
def Obligations.PopDropsAndReadsWhatIsExposed : Prop :=
    (∀ (sr : Bool) (s : State), ∃ t, exec (.popS sr) s = .next t ∧ Changes s t (-2) [] .i16 0 ∧
      t.status = finalStatus s.nos16.msb (s.nos16 == 0) .none false) ∧
    (∀ (sr : Bool) (s : State), ∃ t, exec (.popD sr) s = .next t ∧ Changes s t (-4) [] .i32 0 ∧
      t.status = finalStatus s.nos32.msb (s.nos32 == 0) .none false) ∧
    ∀ (sr : Bool) (cls : BitVec 2) (s : State), isFloatClass cls = true →
      ∃ t, exec (.popF sr cls) s = .next t ∧ Changes s t (-4) [] .f32 0 ∧ t.status = floatStatus s.nosWire .none

/-- On every state TOS and NOS change places byte for byte, the pointer and every other cell stay, and SIGN and
ZERO are the new TOS's. -/
def Obligations.XchSwapsTheTopTwo : Prop :=
    (∀ (sr : Bool) (s : State), ∃ t, exec (.xchS sr) s = .next t ∧ Changes s t 0 [-4, -3, -2, -1] .i16 0 ∧
      t.tos16 = s.nos16 ∧ t.nos16 = s.tos16 ∧ t.status = finalStatus s.nos16.msb (s.nos16 == 0) .none false) ∧
    (∀ (sr : Bool) (s : State), ∃ t, exec (.xchD sr) s = .next t ∧
      Changes s t 0 [-8, -7, -6, -5, -4, -3, -2, -1] .i32 0 ∧
      t.tos32 = s.nos32 ∧ t.nos32 = s.tos32 ∧ t.status = finalStatus s.nos32.msb (s.nos32 == 0) .none false) ∧
    ∀ (sr : Bool) (cls : BitVec 2) (s : State), isFloatClass cls = true →
      ∃ t, exec (.xchF sr cls) s = .next t ∧ Changes s t 0 [-8, -7, -6, -5, -4, -3, -2, -1] .f32 0 ∧
        t.tosWire = s.nosWire ∧ t.nosWire = s.tosWire ∧ t.status = floatStatus s.nosWire .none

/-- On every state the integer at TOS gives way to the AM9511 float of its canonical record, which always
encodes: the pointer gains two bytes for FLTS and stays for FLTD, SIGN is the integer's and ZERO says it is
0, ERROR NONE. A 16-bit integer's float has the integer as its exact value (class ignored is decision D8,
log entry 19). -/
def Obligations.FloatingAnIntegerPushesItsFloat : Prop :=
    (∀ (sr : Bool) (cls : BitVec 2) (s : State), ∃ w t, exec (.flts sr cls) s = .next t ∧
      canonToAm (intToCanon s.tos16.toInt) = some w ∧ (amToCanon w).val = s.tos16.toInt ∧
      Changes s t 2 [-2, -1, 0, 1] .f32 0 ∧ t.tosWire = w ∧
      t.status = finalStatus s.tos16.msb (s.tos16 == 0) .none false) ∧
    ∀ (sr : Bool) (cls : BitVec 2) (s : State), ∃ w t, exec (.fltd sr cls) s = .next t ∧
      canonToAm (intToCanon s.tos32.toInt) = some w ∧
      Changes s t 0 [-4, -3, -2, -1] .f32 0 ∧ t.tosWire = w ∧
      t.status = finalStatus s.tos32.msb (s.tos32 == 0) .none false

/-- On every state: if the float's integer fits, it replaces the float (two bytes fewer for FIXS), with the
flags of the integer and the latch of its class; if not, no cell and no pointer moves, ERROR is OVF and the
flags are the float's (decisions D8, D10 and D14, log entries 19, 18 and 14). -/
def Obligations.FixingAFloatPushesItsInteger : Prop :=
    (∀ (sr : Bool) (cls : BitVec 2) (s : State), ∃ t, exec (.fixs sr cls) s = .next t ∧
      match canonToInt (amToCanon s.tosWire) 16 with
      | some v => Changes s t (-2) [-4, -3] .i16 0 ∧ t.tos16.toInt = v ∧
          t.status = finalStatus (decide (v < 0)) (decide (v = 0)) .none false
      | none => LeavesOperand s t .ovf) ∧
    ∀ (sr : Bool) (cls : BitVec 2) (s : State), ∃ t, exec (.fixd sr cls) s = .next t ∧
      match canonToInt (amToCanon s.tosWire) 32 with
      | some v => Changes s t 0 [-4, -3, -2, -1] .i32 0 ∧ t.tos32.toInt = v ∧
          t.status = finalStatus (decide (v < 0)) (decide (v = 0)) .none false
      | none => LeavesOperand s t .ovf

/-- On every state the sum mod 2^w stands where B was, the pointer retreats by the width, CARRY is the unsigned
carry, OVF is raised when the operands' signs agree and the sum's differs (the sum committed all the same),
and every other cell stays. -/
def Obligations.AddReplacesBothBySum : Prop :=
    (∀ (sr : Bool) (s : State),
      let a := s.tos16
      let b := s.nos16
      let r := b + a
      ∃ t, exec (.addS sr) s = .next t ∧ Changes s t (-2) [-4, -3] .i16 0 ∧ t.tos16 = r ∧
        t.status = finalStatus r.msb (r == 0) (if b.msb = a.msb ∧ r.msb ≠ b.msb then .ovf else .none)
          (decide (2 ^ 16 ≤ b.toNat + a.toNat))) ∧
    ∀ (sr : Bool) (s : State),
      let a := s.tos32
      let b := s.nos32
      let r := b + a
      ∃ t, exec (.addD sr) s = .next t ∧ Changes s t (-4) [-8, -7, -6, -5] .i32 0 ∧ t.tos32 = r ∧
        t.status = finalStatus r.msb (r == 0) (if b.msb = a.msb ∧ r.msb ≠ b.msb then .ovf else .none)
          (decide (2 ^ 32 ≤ b.toNat + a.toNat))

/-- On every state NOS minus TOS stands where B was, CARRY is 1 exactly when B is below A unsigned, OVF is
raised when the operands' signs differ and the result's differs from B's. Operand order and the sense of
CARRY are decisions D5 and D6 (log entries 11 and 12). -/
def Obligations.SubReplacesBothByDifference : Prop :=
    (∀ (sr : Bool) (s : State),
      let a := s.tos16
      let b := s.nos16
      let r := b - a
      ∃ t, exec (.subS sr) s = .next t ∧ Changes s t (-2) [-4, -3] .i16 0 ∧ t.tos16 = r ∧
        t.status = finalStatus r.msb (r == 0) (if b.msb ≠ a.msb ∧ r.msb ≠ b.msb then .ovf else .none)
          (decide (b.toNat < a.toNat))) ∧
    ∀ (sr : Bool) (s : State),
      let a := s.tos32
      let b := s.nos32
      let r := b - a
      ∃ t, exec (.subD sr) s = .next t ∧ Changes s t (-4) [-8, -7, -6, -5] .i32 0 ∧ t.tos32 = r ∧
        t.status = finalStatus r.msb (r == 0) (if b.msb ≠ a.msb ∧ r.msb ≠ b.msb then .ovf else .none)
          (decide (b.toNat < a.toNat))

/-- On every state the low w bits of the signed product stand where B was; OVF exactly when the product of the
magnitudes is 2^w or more, CARRY 0. The overflow rule is decision D11, at 32 bits not authoritative (log
entry 13). -/
def Obligations.MulKeepsTheLowHalf : Prop :=
    (∀ (sr : Bool) (s : State), ∃ t, exec (.mulS sr) s = .next t ∧ Changes s t (-2) [-4, -3] .i16 0 ∧
      t.tos16 = s.nos16 * s.tos16 ∧
      t.status = finalStatus (s.nos16 * s.tos16).msb (s.nos16 * s.tos16 == 0)
        (if 2 ^ 16 ≤ s.nos16.toInt.natAbs * s.tos16.toInt.natAbs then .ovf else .none) false) ∧
    ∀ (sr : Bool) (s : State), ∃ t, exec (.mulD sr) s = .next t ∧ Changes s t (-4) [-8, -7, -6, -5] .i32 0 ∧
      t.tos32 = s.nos32 * s.tos32 ∧
      t.status = finalStatus (s.nos32 * s.tos32).msb (s.nos32 * s.tos32 == 0)
        (if 2 ^ 32 ≤ s.nos32.toInt.natAbs * s.tos32.toInt.natAbs then .ovf else .none) false

/-- On every state the floor of the signed product by 2^w, as w bits, stands where B was; ERROR NONE and CARRY
0. -/
def Obligations.MuuKeepsTheHighHalf : Prop :=
    (∀ (sr : Bool) (s : State), ∃ t, exec (.muuS sr) s = .next t ∧ Changes s t (-2) [-4, -3] .i16 0 ∧
      t.tos16.toInt = (s.nos16.toInt * s.tos16.toInt) / 2 ^ 16 ∧
      t.status = finalStatus t.tos16.msb (t.tos16 == 0) .none false) ∧
    ∀ (sr : Bool) (s : State), ∃ t, exec (.muuD sr) s = .next t ∧ Changes s t (-4) [-8, -7, -6, -5] .i32 0 ∧
      t.tos32.toInt = (s.nos32.toInt * s.tos32.toInt) / 2 ^ 32 ∧
      t.status = finalStatus t.tos32.msb (t.tos32 == 0) .none false

/-- On every state whose operand at TOS is not 0, the truncated signed quotient of NOS by TOS stands where B
was, ERROR NONE, no remainder anywhere; for the most negative value by -1 the most negative value is
committed and ERROR is OVF or NONE, as the free value DIV_MINNEG_ERR draws (decisions D5 and D12, log
entries 11 and 5). -/
def Obligations.DivCommitsTheQuotient : Prop :=
    (∀ (sr : Bool) (s : State), s.tos16 ≠ 0 → ∃ t, exec (.divS sr) s = .next t ∧
      if s.nos16 = 0x8000 ∧ s.tos16 = 0xFFFF then
        Changes s t (-2) [-4, -3] .i16 1 ∧ t.tos16 = 0x8000 ∧
          t.status = finalStatus true false (if Config.divMinNegOvf s.draws then .ovf else .none) false
      else Changes s t (-2) [-4, -3] .i16 0 ∧ t.tos16.toInt = s.nos16.toInt.tdiv s.tos16.toInt ∧
        t.status = finalStatus t.tos16.msb (t.tos16 == 0) .none false) ∧
    ∀ (sr : Bool) (s : State), s.tos32 ≠ 0 → ∃ t, exec (.divD sr) s = .next t ∧
      if s.nos32 = 0x80000000 ∧ s.tos32 = 0xFFFFFFFF then
        Changes s t (-4) [-8, -7, -6, -5] .i32 1 ∧ t.tos32 = 0x80000000 ∧
          t.status = finalStatus true false (if Config.divMinNegOvf s.draws then .ovf else .none) false
      else Changes s t (-4) [-8, -7, -6, -5] .i32 0 ∧ t.tos32.toInt = s.nos32.toInt.tdiv s.tos32.toInt ∧
        t.status = finalStatus t.tos32.msb (t.tos32 == 0) .none false

/-- On every state whose operand at TOS is 0, no cell and no pointer changes and the status is DIV0 with ZERO
set, of the divisor still at TOS (that the divisor is the operand at TOS is decision D5, log entry 11; sz on
that path is decision D10, log entry 18). -/
def Obligations.DivByZeroLeavesTheStack : Prop :=
    (∀ (sr : Bool) (s : State), s.tos16 = 0 → ∃ t, exec (.divS sr) s = .next t ∧ Changes s t 0 [] .i16 0 ∧
      t.status = finalStatus false true .div0 false) ∧
    ∀ (sr : Bool) (s : State), s.tos32 = 0 → ∃ t, exec (.divD sr) s = .next t ∧ Changes s t 0 [] .i32 0 ∧
      t.status = finalStatus false true .div0 false

/-- On every state the exact sum B + A, difference B - A or product B * A, rounded once and range-checked,
encodes and stands where B was with the check's code; SIGN and ZERO are the result's, CARRY 0, every other
cell stays (operand order and class ignored are decisions D5 and D8, log entries 11 and 19; the rounding is
decision D13, log entry 3; the exponent scale on which the check brings every result into range is decision
D15, log entry 20). -/
def Obligations.FloatSumsAndProductsReplaceBoth : Prop :=
    ∀ (sr : Bool) (cls : BitVec 2) (s : State),
      let a := (amToCanon s.tosWire).val
      let b := (amToCanon s.nosWire).val
      (∃ w e t, encodeResult (recordOf (b + a)) = (some w, e) ∧ exec (.fadd sr cls) s = .next t ∧
        ReplacesBoth s t w e 0) ∧
      (∃ w e t, encodeResult (recordOf (b - a)) = (some w, e) ∧ exec (.fsub sr cls) s = .next t ∧
        ReplacesBoth s t w e 0) ∧
      ∃ w e t, encodeResult (recordOf (b * a)) = (some w, e) ∧ exec (.fmul sr cls) s = .next t ∧
        ReplacesBoth s t w e 0

/-- On every state with a non-zero float at TOS, the rounded, range-checked quotient B / A stands where B was;
with a float zero at TOS (leading mantissa bit clear) no cell changes, the pointer retreats by 4, the
numerator's bytes are at TOS, SIGN and ZERO are the numerator's and ERROR is DIV0 (decisions D5, D8 and D20,
log entries 11, 19 and 21; sz on the zero-divisor path is decision D10, log entry 18; the rounding is
decision D13, log entry 3; the exponent scale of the check is decision D15, log entry 20). -/
def Obligations.FloatDivisionReplacesBothOrDropsZero : Prop :=
    ∀ (sr : Bool) (cls : BitVec 2) (s : State),
      let a := (amToCanon s.tosWire).val
      let b := (amToCanon s.nosWire).val
      (s.tosWire.b2.getLsbD 7 = true → ∃ w e t, encodeResult (recordOf (b / a)) = (some w, e) ∧
        exec (.fdiv sr cls) s = .next t ∧ ReplacesBoth s t w e 0) ∧
      (s.tosWire.b2.getLsbD 7 = false → ∃ t, exec (.fdiv sr cls) s = .next t ∧
        Changes s t (-4) [] .f32 0 ∧ t.tosWire = s.nosWire ∧ t.status = floatStatus s.nosWire .div0)

/-- A negative operand gives NEG for SQRT, LN and LOG; a magnitude above 1 gives ARG for ASIN and ACOS, above 32
for EXP; TAN of a magnitude below 2^-12 leaves the operand as its result with code NONE. Stack and pointer
stay and the flags are the operand's (decisions D10, D18 and D19, log entries 18, 15 and 22), whatever the
class bits, the latch ending as F32 (decision D8, log entry 19). -/
def Obligations.DomainChecksRejectInPlace : Prop :=
    ∀ (sr : Bool) (cls : BitVec 2) (s : State),
      let a := (amToCanon s.tosWire).val
      (a < 0 → (∃ t, exec (.sqrt sr cls) s = .next t ∧ LeavesOperand s t .neg) ∧
        (∃ t, exec (.ln sr cls) s = .next t ∧ LeavesOperand s t .neg) ∧
        ∃ t, exec (.log sr cls) s = .next t ∧ LeavesOperand s t .neg) ∧
      (1 < |a| → (∃ t, exec (.asin sr cls) s = .next t ∧ LeavesOperand s t .arg) ∧
        ∃ t, exec (.acos sr cls) s = .next t ∧ LeavesOperand s t .arg) ∧
      (32 < |a| → ∃ t, exec (.exp sr cls) s = .next t ∧ LeavesOperand s t .arg) ∧
      (|a| < 1 / 2 ^ 12 → ∃ t, exec (.tan sr cls) s = .next t ∧ LeavesOperand s t .none)

/-- SQRT from 0, SIN, COS and ATAN everywhere, TAN from 2^-12 in magnitude, ASIN and ACOS to 1, EXP to 32, LN
and LOG above 0: the configuration function's value, rounded and range-checked, stands in place of the
operand with the check's code, and every other cell stays. Where one fold is not enough the bytes are a free
value and the code still the check's (log entries 4, 7 and 15). Class ignored with the latch F32 is decision
D8 (log entry 19), the rounding decision D13 (log entry 3), the exponent scale of the check decision D15
(log entry 20). -/
def Obligations.DerivedFunctionsReplaceTheTop : Prop :=
    ∀ (sr : Bool) (cls : BitVec 2) (s : State),
      let a := (amToCanon s.tosWire).val
      let computes (i : Instr) (f : Fn1) : Prop := ∃ t, exec i s = .next t ∧
        match encodeResult (recordOf (Config.fn1 f a)) with
        | (some w, e) => ReplacesTop s t w e 0
        | (none, e) => ReplacesTop s t (Config.beyondFold s.draws).result e 1
      (0 ≤ a → computes (.sqrt sr cls) .sqrt) ∧ computes (.sin sr cls) .sin ∧ computes (.cos sr cls) .cos ∧
      computes (.atan sr cls) .atan ∧ (1 / 2 ^ 12 ≤ |a| → computes (.tan sr cls) .tan) ∧
      (|a| ≤ 1 → computes (.asin sr cls) .asin ∧ computes (.acos sr cls) .acos) ∧
      (|a| ≤ 32 → computes (.exp sr cls) .exp) ∧ (0 < a → computes (.ln sr cls) .ln ∧ computes (.log sr cls) .log)

/-- The model's own choice (log entry 6; the spec leaves LOG_ZERO open and suggests a refusal): the command
completes, one free value drawn; LN and LOG leave free bytes in the operand's place, PWR replaces both
operands by free bytes or consumes nothing; the code is free, CARRY 0 and the flags those of the bytes left
on top. That PWR's base is at NOS is decision D5 (log entry 11), class ignored with the latch F32 decision
D8 (log entry 19). -/
def Obligations.LogarithmOfZeroIsFree : Prop :=
    ∀ (sr : Bool) (cls : BitVec 2) (s : State),
      let o := Config.logZero s.draws
      (s.tosWire.b2.getLsbD 7 = false → (∃ t, exec (.ln sr cls) s = .next t ∧ ReplacesTop s t o.result o.error 1) ∧
        ∃ t, exec (.log sr cls) s = .next t ∧ ReplacesTop s t o.result o.error 1) ∧
      (s.nosWire.b2.getLsbD 7 = false → ∃ t, exec (.pwr sr cls) s = .next t ∧
        if o.commit then ReplacesBoth s t o.result o.error 1
        else Changes s t 0 [] .f32 1 ∧ t.status = floatStatus s.tosWire o.error)

/-- With a negative base nothing is consumed and ERROR is NEG. With a positive base, if the product A ln B
exceeds 32 in magnitude nothing is consumed and ERROR is ARG; otherwise the configuration function's power,
rounded and range-checked, replaces both operands. Where one fold is not enough the outcome is a free value
with the check's code (decisions D5, D10 and D19, log entries 11, 18 and 22; the free values are log entries
4 and 7; class ignored with the latch F32 is decision D8, log entry 19; the rounding is decision D13, log
entry 3; the exponent scale of the check is decision D15, log entry 20). -/
def Obligations.PowerReplacesBothOrRejects : Prop :=
    ∀ (sr : Bool) (cls : BitVec 2) (s : State),
      let a := (amToCanon s.tosWire).val
      let b := (amToCanon s.nosWire).val
      let o := Config.beyondFold s.draws
      (b < 0 → ∃ t, exec (.pwr sr cls) s = .next t ∧ LeavesOperand s t .neg) ∧
      (0 < b → ∃ t, exec (.pwr sr cls) s = .next t ∧
        if 32 < |Config.fn2 .pwrArg b a| then LeavesOperand s t .arg
        else match encodeResult (recordOf (Config.fn2 .pwr b a)) with
          | (some w, e) => ReplacesBoth s t w e 0
          | (none, e) => if o.commit then ReplacesBoth s t o.result e 1
              else Changes s t 0 [] .f32 1 ∧ t.status = floatStatus s.tosWire e)
end

