-- ==== Sys2Proof/Laws/Memory.lean ====
section
/-! SUPPORT. The stack cells: a read after a write, and that a write keeps the canonical form. -/

namespace Sys2Proof.Machine

theorem Memory.read_filter_self (m : Memory) (a : Nat) :
    Memory.read (m.filter (fun c => c.1 != a)) a = unlisted := by
  induction m with
  | nil => rfl
  | cons c rest ih =>
    by_cases h : c.1 = a
    · simpa [List.filter_cons, h] using ih
    · have hc : (c.1 != a) = true := by simpa using h
      rw [List.filter_cons_of_pos (p := fun d : Host.Cell => d.1 != a) hc, Memory.read, if_neg h, ih]

theorem Memory.read_filter_ne (m : Memory) {a j : Nat} (hj : j ≠ a) :
    Memory.read (m.filter (fun c => c.1 != a)) j = Memory.read m j := by
  induction m with
  | nil => rfl
  | cons c rest ih =>
    by_cases h : c.1 = a
    · have hc : ¬ (c.1 != a) = true := by simpa using h
      have hk : ¬ c.1 = j := fun e => hj (e.symm.trans h)
      rw [List.filter_cons_of_neg (p := fun d : Host.Cell => d.1 != a) hc, ih, Memory.read, if_neg hk]
    · have hc : (c.1 != a) = true := by simpa using h
      rw [List.filter_cons_of_pos (p := fun d : Host.Cell => d.1 != a) hc, Memory.read, Memory.read, ih]

theorem Memory.read_insert_self (m : Memory) (a : Nat) (b : Byte) (h : ∀ c ∈ m, c.1 ≠ a) :
    Memory.read (Memory.insert a b m) a = b := by
  induction m with
  | nil => simp [Memory.insert, Memory.read]
  | cons c rest ih =>
    have hc : c.1 ≠ a := h c (by simp)
    by_cases hlt : a < c.1
    · simp [Memory.insert, hlt, Memory.read]
    · simp [Memory.insert, hlt, Memory.read, hc, ih fun d hd => h d (by simp [hd])]

theorem Memory.read_insert_ne (m : Memory) {a j : Nat} (b : Byte) (hj : j ≠ a) :
    Memory.read (Memory.insert a b m) j = Memory.read m j := by
  induction m with
  | nil => simp [Memory.insert, Memory.read, hj.symm]
  | cons c rest ih =>
    by_cases hlt : a < c.1
    · simp [Memory.insert, hlt, Memory.read, hj.symm]
    · simp [Memory.insert, hlt, Memory.read, ih]

/-- A read at the cell written gives the byte written, of any list. -/
theorem Memory.read_write_self (m : Memory) (a : Nat) (b : Byte) : (m.write a b).read a = b := by
  unfold Memory.write
  by_cases hb : b = unlisted
  · simp [hb, read_filter_self]
  · have h : ∀ c ∈ m.filter (fun c => c.1 != a), c.1 ≠ a := fun c hc => by simpa using (List.mem_filter.1 hc).2
    simp [hb, read_insert_self _ _ _ h]

/-- A write leaves every other cell alone. -/
theorem Memory.read_write_ne (m : Memory) {a j : Nat} (b : Byte) (hj : j ≠ a) :
    (m.write a b).read j = m.read j := by
  unfold Memory.write
  by_cases hb : b = unlisted
  · simp [hb, read_filter_ne m hj]
  · simp [hb, read_insert_ne _ _ hj, read_filter_ne m hj]

/-- Read after write, in one equation. -/
theorem Memory.read_write (m : Memory) (a j : Nat) (b : Byte) :
    (m.write a b).read j = if j = a then b else m.read j := by
  by_cases h : j = a
  · simp [h, read_write_self]
  · simp [h, read_write_ne m b h]

theorem Memory.mem_insert {m : Memory} {a : Nat} {b : Byte} {c : Host.Cell} (h : c ∈ Memory.insert a b m) :
    c = (a, b) ∨ c ∈ m := by
  induction m with
  | nil => simpa [Memory.insert] using h
  | cons d rest ih =>
    by_cases hlt : a < d.1
    · simpa [Memory.insert, hlt] using h
    · rcases List.mem_cons.1 (by simpa [Memory.insert, hlt] using h) with hd | hr
      · exact .inr (by simp [hd])
      · rcases ih hr with he | hm
        · exact .inl he
        · exact .inr (by simp [hm])

theorem Memory.pairwise_insert {m : Memory} {a : Nat} {b : Byte} (hm : m.Pairwise (fun c d => c.1 < d.1))
    (ha : ∀ c ∈ m, c.1 ≠ a) : (Memory.insert a b m).Pairwise (fun c d => c.1 < d.1) := by
  induction m with
  | nil => simp [Memory.insert]
  | cons d rest ih =>
    obtain ⟨hd, hrest⟩ := List.pairwise_cons.1 hm
    by_cases hlt : a < d.1
    · have : ∀ c ∈ d :: rest, (a, b).1 < c.1 := by
        rintro c hc
        rcases List.mem_cons.1 hc with rfl | hr
        · exact hlt
        · exact lt_trans hlt (hd c hr)
      simpa [Memory.insert, hlt] using List.pairwise_cons.2 ⟨this, hm⟩
    · have hda : d.1 < a := lt_of_le_of_ne (not_lt.1 hlt) (ha d (by simp))
      have hins : ∀ c ∈ Memory.insert a b rest, d.1 < c.1 := fun c hc => by
        rcases mem_insert hc with rfl | hr
        · exact hda
        · exact hd c hr
      simpa [Memory.insert, hlt] using
        List.pairwise_cons.2 ⟨hins, ih hrest fun c hc => ha c (by simp [hc])⟩

/-- A write to a cell of the stack keeps the canonical form. -/
theorem Memory.wf_write {m : Memory} (hm : m.wf) {a : Nat} (ha : a < 16) (b : Byte) : (m.write a b).wf := by
  have hf : Memory.wf (m.filter (fun c => c.1 != a)) :=
    ⟨hm.1.sublist List.filter_sublist, fun c hc => hm.2 c (List.mem_filter.1 hc).1⟩
  unfold Memory.write
  by_cases hb : b = unlisted
  · simpa [hb] using hf
  · have hne : ∀ c ∈ m.filter (fun c => c.1 != a), c.1 ≠ a := fun c hc => by simpa using (List.mem_filter.1 hc).2
    simp only [hb, if_false]
    refine ⟨pairwise_insert hf.1 hne, fun c hc => ?_⟩
    rcases mem_insert hc with rfl | hr
    · exact ⟨ha, hb⟩
    · exact hf.2 c hr

theorem Memory.wf_nil : Memory.wf [] := ⟨List.Pairwise.nil, by simp⟩

/-- Canonical lists that read alike are equal: equal memories are equal data. -/
theorem Memory.ext_of_wf {m n : Memory} (hm : m.wf) (hn : n.wf) (h : ∀ a, m.read a = n.read a) : m = n := by
  have unread : ∀ {l : Memory} {a : Nat}, (∀ c ∈ l, a < c.1) → Memory.read l a = unlisted := by
    intro l a hl
    induction l with
    | nil => rfl
    | cons c rest ih =>
      have : ¬ c.1 = a := fun e => absurd (hl c (by simp)) (by omega)
      rw [Memory.read, if_neg this, ih fun d hd => hl d (by simp [hd])]
  have tail : ∀ {c : Host.Cell} {l : Memory}, Memory.wf (c :: l) → Memory.wf l := fun hl =>
    ⟨(List.pairwise_cons.1 hl.1).2, fun d hd => hl.2 d (by simp [hd])⟩
  induction m generalizing n with
  | nil =>
    cases n with
    | nil => rfl
    | cons d n =>
      have := h d.1
      rw [Memory.read, Memory.read, if_pos rfl] at this
      exact absurd this.symm (hn.2 d (by simp)).2
  | cons c m ih =>
    cases n with
    | nil =>
      have := h c.1
      rw [Memory.read, Memory.read, if_pos rfl] at this
      exact absurd this (hm.2 c (by simp)).2
    | cons d n =>
      have hc := (List.pairwise_cons.1 hm.1).1
      have hd := (List.pairwise_cons.1 hn.1).1
      have key : c.1 = d.1 := by
        rcases lt_trichotomy c.1 d.1 with hlt | heq | hgt
        · have h1 := h c.1
          rw [Memory.read, if_pos rfl, unread (l := d :: n)] at h1
          · exact absurd h1 (hm.2 c (by simp)).2
          · intro e he
            rcases List.mem_cons.1 he with rfl | he
            · exact hlt
            · exact lt_trans hlt (hd e he)
        · exact heq
        · have h1 := h d.1
          rw [unread (l := c :: m), Memory.read, if_pos rfl] at h1
          · exact absurd h1.symm (hn.2 d (by simp)).2
          · intro e he
            rcases List.mem_cons.1 he with rfl | he
            · exact hgt
            · exact lt_trans hgt (hc e he)
      have val : c.2 = d.2 := by
        have h1 := h c.1
        rwa [Memory.read, if_pos rfl, Memory.read, if_pos key.symm] at h1
      have rest : m = n := by
        refine ih (tail hm) (tail hn) fun a => ?_
        by_cases ha : a = c.1
        · rw [unread fun e he => ha ▸ hc e he, unread fun e he => by rw [ha, key]; exact hd e he]
        · have h1 := h a
          rwa [Memory.read, if_neg (Ne.symm ha), Memory.read, if_neg (by rw [← key]; exact Ne.symm ha)] at h1
      rw [rest, Prod.ext key val]

end Sys2Proof.Machine
end

