-- ==== Sys2Proof/Laws/State.lean ====
section
/-! SUPPORT. One lemma per field per update of `State`, each true by `rfl`, so that no proof unfolds a
record update; and that updates which touch neither the cells nor the pointer leave every view of the
stack. -/

namespace Sys2Proof.Machine
open Sys2Proof

@[simp] theorem State.poke_x (s : State) (k : Int) (v : Byte) : (s.poke k v).x = s.x.write (s.idx k) v := rfl
@[simp] theorem State.poke_sp (s : State) (k : Int) (v : Byte) : (s.poke k v).sp = s.sp := rfl
@[simp] theorem State.poke_status (s : State) (k : Int) (v : Byte) : (s.poke k v).status = s.status := rfl
@[simp] theorem State.poke_cls (s : State) (k : Int) (v : Byte) : (s.poke k v).cls = s.cls := rfl
@[simp] theorem State.poke_pending (s : State) (k : Int) (v : Byte) : (s.poke k v).pending = s.pending := rfl
@[simp] theorem State.poke_returned (s : State) (k : Int) (v : Byte) : (s.poke k v).returned = s.returned := rfl
@[simp] theorem State.poke_draws (s : State) (k : Int) (v : Byte) : (s.poke k v).draws = s.draws := rfl

@[simp] theorem State.moveSp_x (s : State) (d : Int) : (s.moveSp d).x = s.x := rfl
@[simp] theorem State.moveSp_sp (s : State) (d : Int) : (s.moveSp d).sp = s.sp + BitVec.ofInt 4 d := rfl
@[simp] theorem State.moveSp_status (s : State) (d : Int) : (s.moveSp d).status = s.status := rfl
@[simp] theorem State.moveSp_cls (s : State) (d : Int) : (s.moveSp d).cls = s.cls := rfl
@[simp] theorem State.moveSp_pending (s : State) (d : Int) : (s.moveSp d).pending = s.pending := rfl
@[simp] theorem State.moveSp_returned (s : State) (d : Int) : (s.moveSp d).returned = s.returned := rfl
@[simp] theorem State.moveSp_draws (s : State) (d : Int) : (s.moveSp d).draws = s.draws := rfl

@[simp] theorem State.setSign_x (s : State) (b : Bool) : (s.setSign b).x = s.x := rfl
@[simp] theorem State.setSign_sp (s : State) (b : Bool) : (s.setSign b).sp = s.sp := rfl
@[simp] theorem State.setSign_status (s : State) (b : Bool) : (s.setSign b).status = statusPack (statusBusy s.status) b (statusZero s.status) (statusError s.status) (statusCarry s.status) := rfl
@[simp] theorem State.setSign_cls (s : State) (b : Bool) : (s.setSign b).cls = s.cls := rfl
@[simp] theorem State.setSign_pending (s : State) (b : Bool) : (s.setSign b).pending = s.pending := rfl
@[simp] theorem State.setSign_returned (s : State) (b : Bool) : (s.setSign b).returned = s.returned := rfl
@[simp] theorem State.setSign_draws (s : State) (b : Bool) : (s.setSign b).draws = s.draws := rfl

@[simp] theorem State.setZero_x (s : State) (b : Bool) : (s.setZero b).x = s.x := rfl
@[simp] theorem State.setZero_sp (s : State) (b : Bool) : (s.setZero b).sp = s.sp := rfl
@[simp] theorem State.setZero_status (s : State) (b : Bool) : (s.setZero b).status = statusPack (statusBusy s.status) (statusSign s.status) b (statusError s.status) (statusCarry s.status) := rfl
@[simp] theorem State.setZero_cls (s : State) (b : Bool) : (s.setZero b).cls = s.cls := rfl
@[simp] theorem State.setZero_pending (s : State) (b : Bool) : (s.setZero b).pending = s.pending := rfl
@[simp] theorem State.setZero_returned (s : State) (b : Bool) : (s.setZero b).returned = s.returned := rfl
@[simp] theorem State.setZero_draws (s : State) (b : Bool) : (s.setZero b).draws = s.draws := rfl

@[simp] theorem State.setCarry_x (s : State) (b : Bool) : (s.setCarry b).x = s.x := rfl
@[simp] theorem State.setCarry_sp (s : State) (b : Bool) : (s.setCarry b).sp = s.sp := rfl
@[simp] theorem State.setCarry_status (s : State) (b : Bool) : (s.setCarry b).status = statusPack (statusBusy s.status) (statusSign s.status) (statusZero s.status) (statusError s.status) b := rfl
@[simp] theorem State.setCarry_cls (s : State) (b : Bool) : (s.setCarry b).cls = s.cls := rfl
@[simp] theorem State.setCarry_pending (s : State) (b : Bool) : (s.setCarry b).pending = s.pending := rfl
@[simp] theorem State.setCarry_returned (s : State) (b : Bool) : (s.setCarry b).returned = s.returned := rfl
@[simp] theorem State.setCarry_draws (s : State) (b : Bool) : (s.setCarry b).draws = s.draws := rfl

@[simp] theorem State.raise_x (s : State) (e : ErrorCode) : (s.raise e).x = s.x := rfl
@[simp] theorem State.raise_sp (s : State) (e : ErrorCode) : (s.raise e).sp = s.sp := rfl
@[simp] theorem State.raise_status (s : State) (e : ErrorCode) : (s.raise e).status = statusPack (statusBusy s.status) (statusSign s.status) (statusZero s.status) (errCode e) (statusCarry s.status) := rfl
@[simp] theorem State.raise_cls (s : State) (e : ErrorCode) : (s.raise e).cls = s.cls := rfl
@[simp] theorem State.raise_pending (s : State) (e : ErrorCode) : (s.raise e).pending = s.pending := rfl
@[simp] theorem State.raise_returned (s : State) (e : ErrorCode) : (s.raise e).returned = s.returned := rfl
@[simp] theorem State.raise_draws (s : State) (e : ErrorCode) : (s.raise e).draws = s.draws := rfl

@[simp] theorem State.latch_x (s : State) (c : OpClass) : (s.latch c).x = s.x := rfl
@[simp] theorem State.latch_sp (s : State) (c : OpClass) : (s.latch c).sp = s.sp := rfl
@[simp] theorem State.latch_status (s : State) (c : OpClass) : (s.latch c).status = s.status := rfl
@[simp] theorem State.latch_cls (s : State) (c : OpClass) : (s.latch c).cls = c := rfl
@[simp] theorem State.latch_pending (s : State) (c : OpClass) : (s.latch c).pending = s.pending := rfl
@[simp] theorem State.latch_returned (s : State) (c : OpClass) : (s.latch c).returned = s.returned := rfl
@[simp] theorem State.latch_draws (s : State) (c : OpClass) : (s.latch c).draws = s.draws := rfl

@[simp] theorem State.prologue_x (s : State) (c : OpClass) : (s.prologue c).x = s.x := rfl
@[simp] theorem State.prologue_sp (s : State) (c : OpClass) : (s.prologue c).sp = s.sp := rfl
@[simp] theorem State.prologue_status (s : State) (c : OpClass) : (s.prologue c).status = 0x80 := rfl
@[simp] theorem State.prologue_cls (s : State) (c : OpClass) : (s.prologue c).cls = c := rfl
@[simp] theorem State.prologue_pending (s : State) (c : OpClass) : (s.prologue c).pending = s.pending := rfl
@[simp] theorem State.prologue_returned (s : State) (c : OpClass) : (s.prologue c).returned = s.returned := rfl
@[simp] theorem State.prologue_draws (s : State) (c : OpClass) : (s.prologue c).draws = s.draws := rfl

@[simp] theorem State.epilogue_x (s : State) : s.epilogue.x = s.x := rfl
@[simp] theorem State.epilogue_sp (s : State) : s.epilogue.sp = s.sp := rfl
@[simp] theorem State.epilogue_status (s : State) : s.epilogue.status = statusPack false (statusSign s.status) (statusZero s.status) (statusError s.status) (statusCarry s.status) := rfl
@[simp] theorem State.epilogue_cls (s : State) : s.epilogue.cls = s.cls := rfl
@[simp] theorem State.epilogue_pending (s : State) : s.epilogue.pending = s.pending := rfl
@[simp] theorem State.epilogue_returned (s : State) : s.epilogue.returned = s.returned := rfl
@[simp] theorem State.epilogue_draws (s : State) : s.epilogue.draws = s.draws := rfl

@[simp] theorem State.give_x (s : State) (b : Byte) : (s.give b).x = s.x := rfl
@[simp] theorem State.give_sp (s : State) (b : Byte) : (s.give b).sp = s.sp := rfl
@[simp] theorem State.give_status (s : State) (b : Byte) : (s.give b).status = s.status := rfl
@[simp] theorem State.give_cls (s : State) (b : Byte) : (s.give b).cls = s.cls := rfl
@[simp] theorem State.give_pending (s : State) (b : Byte) : (s.give b).pending = s.pending := rfl
@[simp] theorem State.give_returned (s : State) (b : Byte) : (s.give b).returned = s.returned ++ [b] := rfl
@[simp] theorem State.give_draws (s : State) (b : Byte) : (s.give b).draws = s.draws := rfl

@[simp] theorem State.draw_fst {α : Type} (s : State) (free : Nat → α) : (s.draw free).1 = free s.draws := rfl
@[simp] theorem State.draw_snd {α : Type} (s : State) (free : Nat → α) :
    (s.draw free).2 = { s with draws := s.draws + 1 } := rfl

/-! Views of the stack after updates of other fields. -/

@[simp] theorem State.idx_setSign (s : State) (b : Bool) (k : Int) : (s.setSign b).idx k = s.idx k := rfl
@[simp] theorem State.peek_setSign (s : State) (b : Bool) (k : Int) : (s.setSign b).peek k = s.peek k := rfl
@[simp] theorem State.idx_setZero (s : State) (b : Bool) (k : Int) : (s.setZero b).idx k = s.idx k := rfl
@[simp] theorem State.peek_setZero (s : State) (b : Bool) (k : Int) : (s.setZero b).peek k = s.peek k := rfl
@[simp] theorem State.idx_setCarry (s : State) (b : Bool) (k : Int) : (s.setCarry b).idx k = s.idx k := rfl
@[simp] theorem State.peek_setCarry (s : State) (b : Bool) (k : Int) : (s.setCarry b).peek k = s.peek k := rfl
@[simp] theorem State.idx_raise (s : State) (e : ErrorCode) (k : Int) : (s.raise e).idx k = s.idx k := rfl
@[simp] theorem State.peek_raise (s : State) (e : ErrorCode) (k : Int) : (s.raise e).peek k = s.peek k := rfl
@[simp] theorem State.idx_latch (s : State) (c : OpClass) (k : Int) : (s.latch c).idx k = s.idx k := rfl
@[simp] theorem State.peek_latch (s : State) (c : OpClass) (k : Int) : (s.latch c).peek k = s.peek k := rfl
@[simp] theorem State.idx_prologue (s : State) (c : OpClass) (k : Int) : (s.prologue c).idx k = s.idx k := rfl
@[simp] theorem State.peek_prologue (s : State) (c : OpClass) (k : Int) : (s.prologue c).peek k = s.peek k := rfl
@[simp] theorem State.idx_epilogue (s : State) (k : Int) : s.epilogue.idx k = s.idx k := rfl
@[simp] theorem State.peek_epilogue (s : State) (k : Int) : s.epilogue.peek k = s.peek k := rfl
@[simp] theorem State.idx_give (s : State) (b : Byte) (k : Int) : (s.give b).idx k = s.idx k := rfl
@[simp] theorem State.peek_give (s : State) (b : Byte) (k : Int) : (s.give b).peek k = s.peek k := rfl
@[simp] theorem State.idx_withDraws (s : State) (n : Nat) (k : Int) : ({ s with draws := n } : State).idx k = s.idx k := rfl
@[simp] theorem State.peek_withDraws (s : State) (n : Nat) (k : Int) : ({ s with draws := n } : State).peek k = s.peek k := rfl
@[simp] theorem State.idx_poke (s : State) (j : Int) (v : Byte) (k : Int) : (s.poke j v).idx k = s.idx k := rfl

end Sys2Proof.Machine
end

