-- ==== Sys2Proof/Laws/Stack.lean ====
section
/-! SUPPORT. The stack window: indices stay below 16, offsets count mod 16, and what a cell reads as after
a poke or a move of the pointer. -/

namespace Sys2Proof.Machine
open Sys2Proof

theorem State.idx_lt (s : State) (k : Int) : s.idx k < 16 := (s.sp + BitVec.ofInt 4 k).isLt

/-- Two offsets name one cell exactly when they agree mod 16. -/
theorem State.idx_eq_iff (s : State) (j k : Int) : s.idx j = s.idx k ↔ BitVec.ofInt 4 j = BitVec.ofInt 4 k := by
  unfold State.idx
  rw [BitVec.toNat_inj]
  exact ⟨fun h => (BitVec.add_right_inj _).1 h, fun h => by rw [h]⟩

@[simp] theorem State.idx_moveSp (s : State) (d k : Int) : (s.moveSp d).idx k = s.idx (d + k) := by
  simp [State.idx, State.moveSp, BitVec.ofInt_add, BitVec.add_assoc]

@[simp] theorem State.peek_moveSp (s : State) (d k : Int) : (s.moveSp d).peek k = s.peek (d + k) := by
  simp [State.peek]

/-- A peek after a poke: offsets that agree mod 16 name one cell. -/
@[simp] theorem State.peek_poke (s : State) (j k : Int) (v : Byte) :
    (s.poke k v).peek j = if BitVec.ofInt 4 j = BitVec.ofInt 4 k then v else s.peek j := by
  unfold State.peek
  rw [State.idx_poke, State.poke_x, Memory.read_write]
  simp only [State.idx_eq_iff]

/-- The pointer moves last: one normal form for pokes and moves. -/
@[simp] theorem State.poke_moveSp (s : State) (d k : Int) (v : Byte) :
    (s.moveSp d).poke k v = (s.poke (d + k) v).moveSp d := by
  unfold State.poke
  rw [State.idx_moveSp]
  rfl

@[simp] theorem State.moveSp_moveSp (s : State) (d e : Int) : (s.moveSp d).moveSp e = s.moveSp (d + e) := by
  simp [State.moveSp, BitVec.ofInt_add, BitVec.add_assoc]

/-- A poke keeps the canonical form of the cells. -/
theorem State.wf_poke {s : State} (h : Memory.wf s.x) (k : Int) (v : Byte) : Memory.wf (s.poke k v).x :=
  Memory.wf_write h (s.idx_lt k) v

/-- What a push does, at once (R104). -/
theorem State.pushByte_eq (s : State) (b : Byte) : s.pushByte b = (s.poke 0 b).moveSp 1 := rfl

/-- What a pop does, at once (R105). -/
theorem State.popByte_eq (s : State) : s.popByte = (s.peek (-1), s.moveSp (-1)) := by
  simp [State.popByte]

end Sys2Proof.Machine
end

