-- ==== Sys2Proof/Laws/Flags.lean ====
section
/-! SUPPORT. The fields of the status byte read back, and what `raise`, `sz` and a whole command leave in
it. -/

namespace Sys2Proof.Machine
open Sys2Proof

@[simp] theorem statusBusy_pack (b n z : Bool) (e : BitVec 4) (c : Bool) : statusBusy (statusPack b n z e c) = b := by
  cases b <;> cases n <;> cases z <;> cases c <;> revert e <;> decide

@[simp] theorem statusSign_pack (b n z : Bool) (e : BitVec 4) (c : Bool) : statusSign (statusPack b n z e c) = n := by
  cases b <;> cases n <;> cases z <;> cases c <;> revert e <;> decide

@[simp] theorem statusZero_pack (b n z : Bool) (e : BitVec 4) (c : Bool) : statusZero (statusPack b n z e c) = z := by
  cases b <;> cases n <;> cases z <;> cases c <;> revert e <;> decide

@[simp] theorem statusError_pack (b n z : Bool) (e : BitVec 4) (c : Bool) : statusError (statusPack b n z e c) = e := by
  cases b <;> cases n <;> cases z <;> cases c <;> revert e <;> decide

@[simp] theorem statusCarry_pack (b n z : Bool) (e : BitVec 4) (c : Bool) : statusCarry (statusPack b n z e c) = c := by
  cases b <;> cases n <;> cases z <;> cases c <;> revert e <;> decide

/-- The five fields are the whole register. -/
theorem statusPack_fields (v : BitVec 8) :
    statusPack (statusBusy v) (statusSign v) (statusZero v) (statusError v) (statusCarry v) = v := by
  revert v; decide

@[simp] theorem statusBusy_prologue : statusBusy 128#8 = true := by decide
@[simp] theorem statusSign_prologue : statusSign 128#8 = false := by decide
@[simp] theorem statusZero_prologue : statusZero 128#8 = false := by decide
@[simp] theorem statusError_prologue : statusError 128#8 = errCode .none := by decide
@[simp] theorem statusCarry_prologue : statusCarry 128#8 = false := by decide

/-- `raiseIf` writes the code exactly when its condition holds. -/
@[simp] theorem State.raiseIf_status (s : State) (b : Bool) (e : ErrorCode) :
    (s.raiseIf b e).status = if b then (s.raise e).status else s.status := by
  cases b <;> rfl

@[simp] theorem State.raiseIf_x (s : State) (b : Bool) (e : ErrorCode) : (s.raiseIf b e).x = s.x := by
  cases b <;> rfl
@[simp] theorem State.raiseIf_sp (s : State) (b : Bool) (e : ErrorCode) : (s.raiseIf b e).sp = s.sp := by
  cases b <;> rfl
@[simp] theorem State.raiseIf_cls (s : State) (b : Bool) (e : ErrorCode) : (s.raiseIf b e).cls = s.cls := by
  cases b <;> rfl
@[simp] theorem State.raiseIf_pending (s : State) (b : Bool) (e : ErrorCode) : (s.raiseIf b e).pending = s.pending := by
  cases b <;> rfl
@[simp] theorem State.raiseIf_returned (s : State) (b : Bool) (e : ErrorCode) :
    (s.raiseIf b e).returned = s.returned := by
  cases b <;> rfl
@[simp] theorem State.raiseIf_draws (s : State) (b : Bool) (e : ErrorCode) : (s.raiseIf b e).draws = s.draws := by
  cases b <;> rfl
@[simp] theorem State.idx_raiseIf (s : State) (b : Bool) (e : ErrorCode) (k : Int) :
    (s.raiseIf b e).idx k = s.idx k := by
  cases b <;> rfl
@[simp] theorem State.peek_raiseIf (s : State) (b : Bool) (e : ErrorCode) (k : Int) :
    (s.raiseIf b e).peek k = s.peek k := by
  cases b <;> rfl

/-- What `sz` leaves: SIGN and ZERO of the bytes below the pointer under the latch, all else as before
(R107). -/
theorem State.sz_eq (s : State) :
    s.sz = { s with status := (statusPack (statusBusy s.status) ((s.peek (-1)).getLsbD 7) (s.zeroBelow s.cls)
                (statusError s.status) (statusCarry s.status)) } := by
  simp [State.sz, State.setSign, State.setZero]

@[simp] theorem State.sz_x (s : State) : s.sz.x = s.x := rfl
@[simp] theorem State.sz_sp (s : State) : s.sz.sp = s.sp := rfl
@[simp] theorem State.sz_cls (s : State) : s.sz.cls = s.cls := rfl
@[simp] theorem State.sz_pending (s : State) : s.sz.pending = s.pending := rfl
@[simp] theorem State.sz_returned (s : State) : s.sz.returned = s.returned := rfl
@[simp] theorem State.sz_draws (s : State) : s.sz.draws = s.draws := rfl
@[simp] theorem State.sz_status (s : State) :
    s.sz.status = statusPack (statusBusy s.status) ((s.peek (-1)).getLsbD 7) (s.zeroBelow s.cls)
      (statusError s.status) (statusCarry s.status) := by
  rw [State.sz_eq]
@[simp] theorem State.idx_sz (s : State) (k : Int) : s.sz.idx k = s.idx k := rfl
@[simp] theorem State.peek_sz (s : State) (k : Int) : s.sz.peek k = s.peek k := rfl

@[simp] theorem State.raiseAndSz_x (s : State) (e : ErrorCode) : (s.raiseAndSz e).x = s.x := by
  simp [State.raiseAndSz]
@[simp] theorem State.raiseAndSz_sp (s : State) (e : ErrorCode) : (s.raiseAndSz e).sp = s.sp := by
  simp [State.raiseAndSz]
@[simp] theorem State.raiseAndSz_cls (s : State) (e : ErrorCode) : (s.raiseAndSz e).cls = s.cls := by
  simp [State.raiseAndSz]
@[simp] theorem State.raiseAndSz_pending (s : State) (e : ErrorCode) : (s.raiseAndSz e).pending = s.pending := by
  simp [State.raiseAndSz]
@[simp] theorem State.raiseAndSz_returned (s : State) (e : ErrorCode) : (s.raiseAndSz e).returned = s.returned := by
  simp [State.raiseAndSz]
@[simp] theorem State.raiseAndSz_draws (s : State) (e : ErrorCode) : (s.raiseAndSz e).draws = s.draws := by
  simp [State.raiseAndSz]

/-- On a status whose ERROR is still NONE, a commit's last lines leave the code and the flags. -/
theorem State.raiseAndSz_status {s : State} (h : statusError s.status = errCode .none) (e : ErrorCode) :
    (s.raiseAndSz e).status = statusPack (statusBusy s.status) ((s.peek (-1)).getLsbD 7) (s.zeroBelow s.cls)
      (errCode e) (statusCarry s.status) := by
  cases e <;> simp [State.raiseAndSz, State.raiseIf, h, State.zeroBelow]

/-- A command that has a handler always completes, BUSY clear. -/
theorem runCommand_next (c : OpClass) (h : State → State) (s : State) :
    runCommand c h s = .next (h (s.prologue c)).epilogue := rfl

end Sys2Proof.Machine
end

