-- ==== Sys2Proof/Laws/Operands.lean ====
section
/-! SUPPORT. Operands and their bytes: sign and zero of a word read off its bytes, the word put together
again, and what the commits leave at TOS. -/

namespace Sys2Proof.Machine
open Sys2Proof

/-! ### Words of bytes -/

theorem append_msb {m n : Nat} (hm : m ≠ 0) (h : BitVec m) (l : BitVec n) : (h ++ l).msb = h.msb := by
  rw [BitVec.msb_append]; simp [hm]

theorem byte_msb (b : Byte) : b.msb = b.getLsbD 7 := by simp [BitVec.msb_eq_getLsbD_last]

theorem bytes2_msb (h l : Byte) : (h ++ l : BitVec 16).msb = h.getLsbD 7 :=
  (append_msb (by decide) h l).trans (byte_msb h)

theorem bytes4_msb (a b c d : Byte) : (a ++ b ++ c ++ d : BitVec 32).msb = a.getLsbD 7 :=
  (append_msb (by decide) (a ++ b ++ c) d).trans <| (append_msb (by decide) (a ++ b) c).trans <|
    (append_msb (by decide) a b).trans (byte_msb a)

theorem append_isZero {m n : Nat} (h : BitVec m) (l : BitVec n) :
    ((h ++ l : BitVec (m + n)) == 0#(m + n)) = (h == 0#m && l == 0#n) := by
  have : (h ++ l = 0#(m + n)) ↔ h = 0#m ∧ l = 0#n := by
    constructor
    · intro e
      constructor
      · ext i hi
        have := congrArg (fun v => v.getLsbD (n + i)) e
        simpa [BitVec.getLsbD_append, hi] using this
      · ext i hi
        have := congrArg (fun v => v.getLsbD i) e
        simpa [BitVec.getLsbD_append, hi] using this
    · rintro ⟨rfl, rfl⟩
      ext i hi
      simp
  rw [Bool.eq_iff_iff]
  simpa using this

theorem or_isZero {n : Nat} (a b : BitVec n) : ((a ||| b) == 0#n) = (a == 0#n && b == 0#n) := by
  rw [Bool.eq_iff_iff]
  simp [BitVec.or_eq_zero_iff]

/-- A 16-bit word is 0 exactly when the OR of its bytes is (R107). -/
theorem bytes2_isZero (h l : Byte) : ((h ++ l : BitVec 16) == 0#16) = ((h ||| l) == 0#8) := by
  rw [or_isZero]; exact append_isZero h l

/-- A 32-bit word is 0 exactly when the OR of its bytes is (R107). -/
theorem bytes4_isZero (a b c d : Byte) :
    ((a ++ b ++ c ++ d : BitVec 32) == 0#32) = ((a ||| b ||| c ||| d) == 0#8) := by
  rw [or_isZero, or_isZero, or_isZero, ← append_isZero a b, ← append_isZero (a ++ b) c]
  exact append_isZero (a ++ b ++ c) d

/-- Adjacent fields of a word join. -/
theorem extract_join {w m n : Nat} (v : BitVec w) (a : Nat) :
    v.extractLsb' (a + n) m ++ v.extractLsb' a n = v.extractLsb' a (m + n) := by
  ext i hi
  simp only [BitVec.getElem_append, BitVec.getElem_extractLsb']
  split
  · rfl
  · congr 1; omega

@[simp] theorem bytes2_join (v : Word16) : byteOf v 1 ++ byteOf v 0 = v :=
  (extract_join (m := 8) (n := 8) v 0).trans (by simp)

@[simp] theorem bytes4_join (v : Word32) : byteOf v 3 ++ byteOf v 2 ++ byteOf v 1 ++ byteOf v 0 = v := by
  have h1 : byteOf v 3 ++ byteOf v 2 = v.extractLsb' 16 16 := extract_join (m := 8) (n := 8) v 16
  have h2 : v.extractLsb' 16 16 ++ byteOf v 1 = v.extractLsb' 8 24 := extract_join (m := 16) (n := 8) v 8
  have h3 : v.extractLsb' 8 24 ++ byteOf v 0 = v := (extract_join (m := 24) (n := 8) v 0).trans (by simp)
  rw [h1]
  exact (congrArg (fun u : BitVec 24 => u ++ byteOf v 0) h2).trans h3

theorem append_low {m n : Nat} (h : BitVec m) (l : BitVec n) : (h ++ l).extractLsb' 0 n = l := by
  ext i hi; simp [BitVec.getLsbD_append, hi]

theorem append_high {m n : Nat} (h : BitVec m) (l : BitVec n) : (h ++ l).extractLsb' n m = h := by
  ext i hi; simp [BitVec.getLsbD_append, hi]

@[simp] theorem byteOf_bytes2_low (h l : Byte) : byteOf (h ++ l : BitVec 16) 0 = l := append_low h l

@[simp] theorem byteOf_bytes2_high (h l : Byte) : byteOf (h ++ l : BitVec 16) 1 = h := append_high h l

/-! ### The class map on the forms that fix a class -/

theorem classMap_float {c : BitVec 2} (h : isFloatClass c = true) : classMap c = .f32 := by
  simpa [isFloatClass] using h

/-! ### Flags of whole operands -/

/-- SIGN and ZERO of the 16-bit operand at TOS are those of its word (R107). -/
theorem State.tos16_msb (s : State) : s.tos16.msb = (s.peek (-1)).getLsbD 7 := bytes2_msb _ _
theorem State.tos16_isZero (s : State) : (s.tos16 == 0#16) = s.zeroBelow .i16 := bytes2_isZero _ _
theorem State.nos16_msb (s : State) : s.nos16.msb = (s.peek (-3)).getLsbD 7 := bytes2_msb _ _
theorem State.nos16_isZero (s : State) : (s.nos16 == 0#16) = ((s.peek (-3) ||| s.peek (-4)) == 0#8) :=
  bytes2_isZero _ _
theorem State.tos32_msb (s : State) : s.tos32.msb = (s.peek (-1)).getLsbD 7 := bytes4_msb _ _ _ _
theorem State.tos32_isZero (s : State) : (s.tos32 == 0#32) = s.zeroBelow .i32 := bytes4_isZero _ _ _ _
theorem State.nos32_msb (s : State) : s.nos32.msb = (s.peek (-5)).getLsbD 7 := bytes4_msb _ _ _ _
theorem State.nos32_isZero (s : State) :
    (s.nos32 == 0#32) = ((s.peek (-5) ||| s.peek (-6) ||| s.peek (-7) ||| s.peek (-8)) == 0#8) :=
  bytes4_isZero _ _ _ _

/-! ### Views of the stack depend on the peeks alone -/

/-- Two states whose peeks agree have the same operands. -/
theorem State.tos16_congr {s t : State} (h : ∀ k, t.peek k = s.peek k) : t.tos16 = s.tos16 := by
  simp [State.tos16, h]

@[simp] theorem State.tos16_prologue (s : State) (c : OpClass) : (s.prologue c).tos16 = s.tos16 := rfl
@[simp] theorem State.nos16_prologue (s : State) (c : OpClass) : (s.prologue c).nos16 = s.nos16 := rfl
@[simp] theorem State.tos32_prologue (s : State) (c : OpClass) : (s.prologue c).tos32 = s.tos32 := rfl
@[simp] theorem State.nos32_prologue (s : State) (c : OpClass) : (s.prologue c).nos32 = s.nos32 := rfl
@[simp] theorem State.tosWire_prologue (s : State) (c : OpClass) : (s.prologue c).tosWire = s.tosWire := rfl
@[simp] theorem State.nosWire_prologue (s : State) (c : OpClass) : (s.prologue c).nosWire = s.nosWire := rfl
@[simp] theorem State.tosWire_latch (s : State) (c : OpClass) : (s.latch c).tosWire = s.tosWire := rfl
@[simp] theorem State.nosWire_latch (s : State) (c : OpClass) : (s.latch c).nosWire = s.nosWire := rfl
@[simp] theorem State.tosVal_latch (s : State) (c : OpClass) : (s.latch c).tosVal = s.tosVal := rfl
@[simp] theorem State.nosVal_latch (s : State) (c : OpClass) : (s.latch c).nosVal = s.nosVal := rfl
@[simp] theorem State.tosVal_prologue (s : State) (c : OpClass) : (s.prologue c).tosVal = s.tosVal := rfl
@[simp] theorem State.nosVal_prologue (s : State) (c : OpClass) : (s.prologue c).nosVal = s.nosVal := rfl
@[simp] theorem State.intOperands16_prologue (s : State) (c : OpClass) :
    (s.prologue c).intOperands16 = (s.nos16, s.tos16) := rfl
@[simp] theorem State.intOperands32_prologue (s : State) (c : OpClass) :
    (s.prologue c).intOperands32 = (s.nos32, s.tos32) := rfl
@[simp] theorem State.floatOperands_eq (s : State) : s.floatOperands = (s.nosVal, s.tosVal) := rfl

/-! ### What the writers leave -/

/-- `commit(2, r)`: the pointer retreats by 2, the result's bytes are at offsets -4 and -3 of the pointer
before, nothing else changes (R180). -/
theorem State.commit16_eq (s : State) (r : Word16) :
    s.commit16 r = ((s.poke (-4) (byteOf r 0)).poke (-3) (byteOf r 1)).moveSp (-2) := by
  simp [State.commit16, State.setTos16]

/-- A wire float written after the pointer retreats by 4 lies at offsets -8 .. -5 of the pointer before
(R193). -/
theorem State.setTosWire_moved (s : State) (w : Wire) :
    (s.moveSp (-4)).setTosWire w =
      ((((s.poke (-8) w.b0).poke (-7) w.b1).poke (-6) w.b2).poke (-5) w.b3).moveSp (-4) := by
  simp [State.setTosWire]

/-- `commit(4, r)` (R180). -/
theorem State.commit32_eq (s : State) (r : Word32) :
    s.commit32 r = ((((s.poke (-8) (byteOf r 0)).poke (-7) (byteOf r 1)).poke (-6) (byteOf r 2)).poke (-5)
      (byteOf r 3)).moveSp (-4) := by
  simp [State.commit32, State.setTos32, State.setTosWire_moved, wireOf32]

/-- Two pushes: the bytes lie at offsets 0 and 1, the pointer advances by 2 (R104). -/
theorem State.push16_eq (s : State) (v : Word16) :
    s.push16 v = ((s.poke 0 (byteOf v 0)).poke 1 (byteOf v 1)).moveSp 2 := by
  simp [State.push16, State.pushByte]

/-- Four pushes: the bytes lie at offsets 0 .. 3, the pointer advances by 4 (R104). -/
theorem State.pushWire_eq (s : State) (w : Wire) :
    s.pushWire w = ((((s.poke 0 w.b0).poke 1 w.b1).poke 2 w.b2).poke 3 w.b3).moveSp 4 := by
  simp [State.pushWire, State.pushByte]

/-- An exchange of two cells: each takes the other's byte (R140, R141). -/
theorem State.swapCells_eq (s : State) (i j : Int) :
    s.swapCells i j = (s.poke i (s.peek j)).poke j (s.peek i) := rfl

/-- Reads after a list of pokes: a cell at none of the offsets keeps its byte. -/
theorem State.read_poke_ne (s : State) (k : Int) (v : Byte) {a : Nat} (h : a ≠ s.idx k) :
    (s.poke k v).x.read a = s.x.read a := Memory.read_write_ne _ _ h

/-! ### The other fields after the compound writers -/

@[simp] theorem State.pushByte_status (s : State) (b : Byte) : (s.pushByte b).status = s.status := by simp [State.pushByte]
@[simp] theorem State.pushByte_cls (s : State) (b : Byte) : (s.pushByte b).cls = s.cls := by simp [State.pushByte]
@[simp] theorem State.pushByte_pending (s : State) (b : Byte) : (s.pushByte b).pending = s.pending := by simp [State.pushByte]
@[simp] theorem State.pushByte_returned (s : State) (b : Byte) : (s.pushByte b).returned = s.returned := by simp [State.pushByte]
@[simp] theorem State.pushByte_draws (s : State) (b : Byte) : (s.pushByte b).draws = s.draws := by simp [State.pushByte]
@[simp] theorem State.pushByte_sp (s : State) (b : Byte) : (s.pushByte b).sp = s.sp + BitVec.ofInt 4 (1) := by simp [State.pushByte]

@[simp] theorem State.swapCells_status (s : State) (i j : Int) : (s.swapCells i j).status = s.status := by simp [State.swapCells]
@[simp] theorem State.swapCells_cls (s : State) (i j : Int) : (s.swapCells i j).cls = s.cls := by simp [State.swapCells]
@[simp] theorem State.swapCells_pending (s : State) (i j : Int) : (s.swapCells i j).pending = s.pending := by simp [State.swapCells]
@[simp] theorem State.swapCells_returned (s : State) (i j : Int) : (s.swapCells i j).returned = s.returned := by simp [State.swapCells]
@[simp] theorem State.swapCells_draws (s : State) (i j : Int) : (s.swapCells i j).draws = s.draws := by simp [State.swapCells]
@[simp] theorem State.swapCells_sp (s : State) (i j : Int) : (s.swapCells i j).sp = s.sp := by simp [State.swapCells]

@[simp] theorem State.setTos16_status (s : State) (v : Word16) : (s.setTos16 v).status = s.status := by simp [State.setTos16]
@[simp] theorem State.setTos16_cls (s : State) (v : Word16) : (s.setTos16 v).cls = s.cls := by simp [State.setTos16]
@[simp] theorem State.setTos16_pending (s : State) (v : Word16) : (s.setTos16 v).pending = s.pending := by simp [State.setTos16]
@[simp] theorem State.setTos16_returned (s : State) (v : Word16) : (s.setTos16 v).returned = s.returned := by simp [State.setTos16]
@[simp] theorem State.setTos16_draws (s : State) (v : Word16) : (s.setTos16 v).draws = s.draws := by simp [State.setTos16]
@[simp] theorem State.setTos16_sp (s : State) (v : Word16) : (s.setTos16 v).sp = s.sp := by simp [State.setTos16]

@[simp] theorem State.setTosWire_status (s : State) (w : Wire) : (s.setTosWire w).status = s.status := by simp [State.setTosWire]
@[simp] theorem State.setTosWire_cls (s : State) (w : Wire) : (s.setTosWire w).cls = s.cls := by simp [State.setTosWire]
@[simp] theorem State.setTosWire_pending (s : State) (w : Wire) : (s.setTosWire w).pending = s.pending := by simp [State.setTosWire]
@[simp] theorem State.setTosWire_returned (s : State) (w : Wire) : (s.setTosWire w).returned = s.returned := by simp [State.setTosWire]
@[simp] theorem State.setTosWire_draws (s : State) (w : Wire) : (s.setTosWire w).draws = s.draws := by simp [State.setTosWire]
@[simp] theorem State.setTosWire_sp (s : State) (w : Wire) : (s.setTosWire w).sp = s.sp := by simp [State.setTosWire]

@[simp] theorem State.setTos32_status (s : State) (v : Word32) : (s.setTos32 v).status = s.status := by simp [State.setTos32]
@[simp] theorem State.setTos32_cls (s : State) (v : Word32) : (s.setTos32 v).cls = s.cls := by simp [State.setTos32]
@[simp] theorem State.setTos32_pending (s : State) (v : Word32) : (s.setTos32 v).pending = s.pending := by simp [State.setTos32]
@[simp] theorem State.setTos32_returned (s : State) (v : Word32) : (s.setTos32 v).returned = s.returned := by simp [State.setTos32]
@[simp] theorem State.setTos32_draws (s : State) (v : Word32) : (s.setTos32 v).draws = s.draws := by simp [State.setTos32]
@[simp] theorem State.setTos32_sp (s : State) (v : Word32) : (s.setTos32 v).sp = s.sp := by simp [State.setTos32]

@[simp] theorem State.push16_status (s : State) (v : Word16) : (s.push16 v).status = s.status := by simp [State.push16_eq]
@[simp] theorem State.push16_cls (s : State) (v : Word16) : (s.push16 v).cls = s.cls := by simp [State.push16_eq]
@[simp] theorem State.push16_pending (s : State) (v : Word16) : (s.push16 v).pending = s.pending := by simp [State.push16_eq]
@[simp] theorem State.push16_returned (s : State) (v : Word16) : (s.push16 v).returned = s.returned := by simp [State.push16_eq]
@[simp] theorem State.push16_draws (s : State) (v : Word16) : (s.push16 v).draws = s.draws := by simp [State.push16_eq]
@[simp] theorem State.push16_sp (s : State) (v : Word16) : (s.push16 v).sp = s.sp + BitVec.ofInt 4 (2) := by simp [State.push16_eq]

@[simp] theorem State.pushWire_status (s : State) (w : Wire) : (s.pushWire w).status = s.status := by simp [State.pushWire_eq]
@[simp] theorem State.pushWire_cls (s : State) (w : Wire) : (s.pushWire w).cls = s.cls := by simp [State.pushWire_eq]
@[simp] theorem State.pushWire_pending (s : State) (w : Wire) : (s.pushWire w).pending = s.pending := by simp [State.pushWire_eq]
@[simp] theorem State.pushWire_returned (s : State) (w : Wire) : (s.pushWire w).returned = s.returned := by simp [State.pushWire_eq]
@[simp] theorem State.pushWire_draws (s : State) (w : Wire) : (s.pushWire w).draws = s.draws := by simp [State.pushWire_eq]
@[simp] theorem State.pushWire_sp (s : State) (w : Wire) : (s.pushWire w).sp = s.sp + BitVec.ofInt 4 (4) := by simp [State.pushWire_eq]

@[simp] theorem State.commit16_status (s : State) (r : Word16) : (s.commit16 r).status = s.status := by simp [State.commit16_eq]
@[simp] theorem State.commit16_cls (s : State) (r : Word16) : (s.commit16 r).cls = s.cls := by simp [State.commit16_eq]
@[simp] theorem State.commit16_pending (s : State) (r : Word16) : (s.commit16 r).pending = s.pending := by simp [State.commit16_eq]
@[simp] theorem State.commit16_returned (s : State) (r : Word16) : (s.commit16 r).returned = s.returned := by simp [State.commit16_eq]
@[simp] theorem State.commit16_draws (s : State) (r : Word16) : (s.commit16 r).draws = s.draws := by simp [State.commit16_eq]
@[simp] theorem State.commit16_sp (s : State) (r : Word16) : (s.commit16 r).sp = s.sp + BitVec.ofInt 4 (-2) := by simp [State.commit16_eq]

@[simp] theorem State.commit32_status (s : State) (r : Word32) : (s.commit32 r).status = s.status := by simp [State.commit32_eq]
@[simp] theorem State.commit32_cls (s : State) (r : Word32) : (s.commit32 r).cls = s.cls := by simp [State.commit32_eq]
@[simp] theorem State.commit32_pending (s : State) (r : Word32) : (s.commit32 r).pending = s.pending := by simp [State.commit32_eq]
@[simp] theorem State.commit32_returned (s : State) (r : Word32) : (s.commit32 r).returned = s.returned := by simp [State.commit32_eq]
@[simp] theorem State.commit32_draws (s : State) (r : Word32) : (s.commit32 r).draws = s.draws := by simp [State.commit32_eq]
@[simp] theorem State.commit32_sp (s : State) (r : Word32) : (s.commit32 r).sp = s.sp + BitVec.ofInt 4 (-4) := by simp [State.commit32_eq]

@[simp] theorem State.exchange4_status (s : State) : s.exchange4.status = s.status := by simp [State.exchange4]
@[simp] theorem State.exchange4_cls (s : State) : s.exchange4.cls = s.cls := by simp [State.exchange4]
@[simp] theorem State.exchange4_pending (s : State) : s.exchange4.pending = s.pending := by simp [State.exchange4]
@[simp] theorem State.exchange4_returned (s : State) : s.exchange4.returned = s.returned := by simp [State.exchange4]
@[simp] theorem State.exchange4_draws (s : State) : s.exchange4.draws = s.draws := by simp [State.exchange4]
@[simp] theorem State.exchange4_sp (s : State) : s.exchange4.sp = s.sp := by simp [State.exchange4]

@[simp] theorem State.flipFloatSign_sp (s : State) : s.flipFloatSign.sp = s.sp := by
  unfold State.flipFloatSign; split <;> rfl
@[simp] theorem State.flipFloatSign_status (s : State) : s.flipFloatSign.status = s.status := by
  unfold State.flipFloatSign; split <;> rfl
@[simp] theorem State.flipFloatSign_cls (s : State) : s.flipFloatSign.cls = s.cls := by
  unfold State.flipFloatSign; split <;> rfl
@[simp] theorem State.flipFloatSign_pending (s : State) : s.flipFloatSign.pending = s.pending := by
  unfold State.flipFloatSign; split <;> rfl
@[simp] theorem State.flipFloatSign_returned (s : State) : s.flipFloatSign.returned = s.returned := by
  unfold State.flipFloatSign; split <;> rfl
@[simp] theorem State.flipFloatSign_draws (s : State) : s.flipFloatSign.draws = s.draws := by
  unfold State.flipFloatSign; split <;> rfl
@[simp] theorem State.pushRecord_status (s : State) (c : Canon) : (s.pushRecord c).status = s.status := by
  unfold State.pushRecord; split <;> simp
@[simp] theorem State.pushRecord_cls (s : State) (c : Canon) : (s.pushRecord c).cls = s.cls := by
  unfold State.pushRecord; split <;> simp
@[simp] theorem State.pushRecord_pending (s : State) (c : Canon) : (s.pushRecord c).pending = s.pending := by
  unfold State.pushRecord; split <;> simp
@[simp] theorem State.pushRecord_returned (s : State) (c : Canon) : (s.pushRecord c).returned = s.returned := by
  unfold State.pushRecord; split <;> simp
@[simp] theorem State.pushRecord_draws (s : State) (c : Canon) : (s.pushRecord c).draws = s.draws := by
  unfold State.pushRecord; split <;> simp

end Sys2Proof.Machine
end

