-- ==== Sys2Proof/Laws/Float.lean ====
section
/-! SUPPORT. What the shared float steps do, one lemma for each case: the commits, the free outcomes, the
rejections, and the shape of the derived functions. -/

namespace Sys2Proof.Machine
open Sys2Proof

/-! ### Commits -/

/-- Both operands replaced by the encoded result (R193). -/
theorem State.fcommit2_some {c : Canon} {w : Wire} {e : ErrorCode} (h : encodeResult c = (some w, e)) (s : State) :
    s.fcommit2 c = ((s.moveSp (-4)).setTosWire w).raiseAndSz e := by
  simp [State.fcommit2, h]

/-- One fold was not enough: a free outcome with the check's code (log entry 7). -/
theorem State.fcommit2_none {c : Canon} {e : ErrorCode} (h : encodeResult c = (none, e)) (s : State) :
    s.fcommit2 c = State.openCommit2 { s with draws := s.draws + 1 } (Config.beyondFold s.draws) e := by
  simp [State.fcommit2, h]

/-- The operand replaced by the encoded result (R210). -/
theorem State.fcommit1_some {c : Canon} {w : Wire} {e : ErrorCode} (h : encodeResult c = (some w, e)) (s : State) :
    s.fcommit1 c = (s.setTosWire w).raiseAndSz e := by
  simp [State.fcommit1, h]

/-- One fold was not enough: free bytes with the check's code (log entry 7). -/
theorem State.fcommit1_none {c : Canon} {e : ErrorCode} (h : encodeResult c = (none, e)) (s : State) :
    s.fcommit1 c = State.openCommit1 { s with draws := s.draws + 1 } (Config.beyondFold s.draws) e := by
  simp [State.fcommit1, h]

/-- A free outcome over both operands replaces them or consumes nothing. -/
theorem State.openCommit2_cases (s : State) (o : OpenOutcome) (e : ErrorCode) :
    (o.commit = true ∧ s.openCommit2 o e = ((s.moveSp (-4)).setTosWire o.result).raiseAndSz e) ∨
      (o.commit = false ∧ s.openCommit2 o e = s.raiseAndSz e) := by
  cases h : o.commit <;> simp [State.openCommit2, h]

/-- A result's code is NONE, OVF or UND. -/
theorem encodeResult_code (c : Canon) :
    (encodeResult c).2 = .none ∨ (encodeResult c).2 = .ovf ∨ (encodeResult c).2 = .und := by
  unfold encodeResult
  cases c.isNormal
  · simp
  · simp only [if_true, range]
    split
    · simp
    · split <;> simp

/-! ### The parameter `LOG_ZERO` -/

/-- Under the value `refuse` a command stops exactly at zero, and runs unchanged elsewhere (R220, R222). -/
@[simp] theorem atLogZero_refuse (name : String) (isZero : Bool) (runs : Result) :
    atLogZero .refuse name isZero runs = if isZero then .refused (.logarithmOfZero name) else runs := rfl

/-- Under the value `free` it always runs (log entry 6). -/
@[simp] theorem atLogZero_free (name : String) (isZero : Bool) (runs : Result) :
    atLogZero .free name isZero runs = runs := rfl

/-- The model's LN and LOG (log entry 6). -/
theorem logarithmUnder_logZeroRule (name : String) (f : Fn1) (cls : BitVec 2) (s : State) :
    logarithmUnder logZeroRule name f cls s = runCommand (classMap cls) (fun s => s.logarithm f) s := rfl

/-- The model's PWR (log entry 6). -/
theorem powerUnder_logZeroRule (cls : BitVec 2) (s : State) :
    powerUnder logZeroRule cls s = runCommand (classMap cls) State.power s := rfl

/-! ### Values -/

/-- A wire float with its leading mantissa bit clear reads as the zero record (R273). -/
theorem amToCanon_zero {w : Wire} (h : w.b2.getLsbD 7 = false) : amToCanon w = Canon.zero := by
  unfold amToCanon
  rw [h]
  rfl

/-- A wire float with its leading mantissa bit set, read field by field (R273). -/
theorem amToCanon_normal {w : Wire} (h : w.b2.getLsbD 7 = true) :
    amToCanon w = ⟨w.b3.getLsbD 7, (w.b3.extractLsb' 0 7).toInt - 1, w.b2, w.b1 ++ w.b0⟩ := by
  unfold amToCanon
  rw [h]
  rfl

/-- A float value is 0 when its leading mantissa bit is clear (R273). -/
theorem amToCanon_val_zero {w : Wire} (h : w.b2.getLsbD 7 = false) : (amToCanon w).val = 0 := by
  rw [amToCanon_zero h]
  decide

/-- The record of a wire float is normal exactly when its leading mantissa bit is set (R273). -/
theorem amToCanon_isNormal (w : Wire) : (amToCanon w).isNormal = w.b2.getLsbD 7 := by
  cases h : w.b2.getLsbD 7
  · rw [amToCanon_zero h]
    decide
  · rw [amToCanon_normal h]
    exact h

/-- `scale` is multiplication by a power of two. -/
theorem scale_eq (m : Nat) (e : Int) : scale m e = (m : ℚ) * (2 : ℚ) ^ e := by
  unfold scale
  rw [Rat.mkRat_eq_div]
  rcases le_total 0 e with h | h
  · obtain ⟨n, rfl⟩ := Int.eq_ofNat_of_zero_le h
    simp
  · obtain ⟨n, hn⟩ := Int.eq_ofNat_of_zero_le (Int.neg_nonneg_of_nonpos h)
    obtain rfl : e = -n := by omega
    simp [div_eq_mul_inv]

/-- The value of a record, with the power of two written as one (R271). -/
theorem Canon.val_eq (c : Canon) :
    c.val = if c.isNormal then
      (if c.sign then -1 else 1) * ((c.mantissa.toNat : ℚ) * (2 : ℚ) ^ (c.exponent - 23)) else 0 := by
  unfold Canon.val
  simp only [scale_eq]
  split_ifs <;> ring

end Sys2Proof.Machine
end

