-- ==== Sys2Proof/Laws/Commits.lean ====
section
/-! SUPPORT. What a whole command leaves once its handler commits or rejects: the cells, the pointer, the
latch, the operand then at TOS and the status byte, each shape said once. The obligations about single
commands follow from these by choosing the result. -/

namespace Sys2Proof.Machine
open Sys2Proof

/-! ### Flags of a word from its bytes -/

theorem byteOf_join16 (r : Word16) : byteOf r 1 ++ byteOf r 0 = r := by simp

theorem byteOf_join32 (r : Word32) : byteOf r 3 ++ byteOf r 2 ++ byteOf r 1 ++ byteOf r 0 = r := by simp

theorem word16_isZero (r : Word16) : (r == 0#16) = ((byteOf r 1 ||| byteOf r 0) == 0) := by
  conv_lhs => rw [← byteOf_join16 r]
  exact bytes2_isZero _ _

theorem word16_msb (r : Word16) : r.msb = (byteOf r 1).getLsbD 7 := by
  conv_lhs => rw [← byteOf_join16 r]
  exact bytes2_msb _ _

theorem word32_isZero (r : Word32) :
    (r == 0#32) = ((byteOf r 3 ||| byteOf r 2 ||| byteOf r 1 ||| byteOf r 0) == 0) := by
  conv_lhs => rw [← byteOf_join32 r]
  exact bytes4_isZero _ _ _ _

theorem word32_msb (r : Word32) : r.msb = (byteOf r 3).getLsbD 7 := by
  conv_lhs => rw [← byteOf_join32 r]
  exact bytes4_msb _ _ _ _

/-! ### Integer commits -/

/-- A 16-bit commit, whatever the status and the count of draws around it (R180). -/
theorem commit16_changes (s : State) (r : Word16) (v : BitVec 8) (n : Nat) :
    let t : State := { s.commit16 r with status := v, cls := .i16, draws := s.draws + n }
    Changes s t (-2) [-4, -3] .i16 n ∧ t.tos16 = r := by
  intro t
  refine ⟨?_, ?_⟩
  · simp +contextual [t, Changes, State.commit16_eq, Memory.read_write]
  · have h : ∀ k, t.peek k = (s.commit16 r).peek k := fun _ => rfl
    rw [State.tos16_congr h]
    simp [State.tos16, State.commit16_eq]

/-- A 32-bit commit, whatever the status and the count of draws around it (R180). -/
theorem commit32_changes (s : State) (r : Word32) (v : BitVec 8) (n : Nat) :
    let t : State := { s.commit32 r with status := v, cls := .i32, draws := s.draws + n }
    Changes s t (-4) [-8, -7, -6, -5] .i32 n ∧ t.tos32 = r := by
  intro t
  refine ⟨?_, ?_⟩
  · simp +contextual [t, Changes, State.commit32_eq, Memory.read_write]
  · have h : ∀ k, t.peek k = (s.commit32 r).peek k := fun _ => rfl
    simp only [State.tos32, h]
    simp [State.commit32_eq]

/-- The end of ADD.S and SUB.S: commit, CARRY, a code if its condition holds, `sz`, epilogue. -/
theorem finish16_carry (s : State) (r : Word16) (c o : Bool) (e : ErrorCode) :
    ((((s.prologue .i16).commit16 r).setCarry c).raiseIf o e).sz.epilogue =
      { s.commit16 r with status := finalStatus r.msb (r == 0) (if o then e else .none) c, cls := .i16 } := by
  have h : ((((s.prologue .i16).commit16 r).setCarry c).raiseIf o e).sz.epilogue.status =
      finalStatus r.msb (r == 0) (if o then e else .none) c := by
    cases o <;> simp [finalStatus, State.zeroBelow, State.commit16_eq, word16_isZero, word16_msb]
  rw [← h]
  cases o <;> rfl

/-- The end of the other 16-bit commands that commit. -/
theorem finish16 (s : State) (r : Word16) (o : Bool) (e : ErrorCode) :
    (((s.prologue .i16).commit16 r).raiseIf o e).sz.epilogue =
      { s.commit16 r with status := finalStatus r.msb (r == 0) (if o then e else .none) false, cls := .i16 } := by
  have h : (((s.prologue .i16).commit16 r).raiseIf o e).sz.epilogue.status =
      finalStatus r.msb (r == 0) (if o then e else .none) false := by
    cases o <;> simp [finalStatus, State.zeroBelow, State.commit16_eq, word16_isZero, word16_msb]
  rw [← h]
  cases o <;> rfl

/-- The end of ADD.D and SUB.D. -/
theorem finish32_carry (s : State) (r : Word32) (c o : Bool) (e : ErrorCode) :
    ((((s.prologue .i32).commit32 r).setCarry c).raiseIf o e).sz.epilogue =
      { s.commit32 r with status := finalStatus r.msb (r == 0) (if o then e else .none) c, cls := .i32 } := by
  have h : ((((s.prologue .i32).commit32 r).setCarry c).raiseIf o e).sz.epilogue.status =
      finalStatus r.msb (r == 0) (if o then e else .none) c := by
    cases o <;> simp [finalStatus, State.zeroBelow, State.commit32_eq, word32_isZero, word32_msb]
  rw [← h]
  cases o <;> rfl

/-- The end of the other 32-bit commands that commit. -/
theorem finish32 (s : State) (r : Word32) (o : Bool) (e : ErrorCode) :
    (((s.prologue .i32).commit32 r).raiseIf o e).sz.epilogue =
      { s.commit32 r with status := finalStatus r.msb (r == 0) (if o then e else .none) false, cls := .i32 } := by
  have h : (((s.prologue .i32).commit32 r).raiseIf o e).sz.epilogue.status =
      finalStatus r.msb (r == 0) (if o then e else .none) false := by
    cases o <;> simp [finalStatus, State.zeroBelow, State.commit32_eq, word32_isZero, word32_msb]
  rw [← h]
  cases o <;> rfl

/-! ### Float commits and rejections -/

/-- A float handler as it starts: the state of the command, status 0x80, latch F32, `n` values drawn
(R100, R190). -/
structure Entered (s t : State) (n : Nat) : Prop where
  x : t.x = s.x
  sp : t.sp = s.sp
  status : t.status = 0x80
  cls : t.cls = .f32
  draws : t.draws = s.draws + n
  pending : t.pending = s.pending
  returned : t.returned = s.returned

theorem entered_prologue (s : State) (c : OpClass) : Entered s ((s.prologue c).latch .f32) 0 :=
  ⟨rfl, rfl, rfl, rfl, rfl, rfl, rfl⟩

theorem entered_draw (s : State) (c : OpClass) {α : Type} (free : Nat → α) :
    Entered s (((s.prologue c).latch .f32).draw free).2 1 :=
  ⟨rfl, rfl, rfl, rfl, rfl, rfl, rfl⟩

theorem Entered.idx {s t : State} {n : Nat} (h : Entered s t n) (k : Int) : t.idx k = s.idx k := by
  simp [State.idx, h.sp]

/-- Both float operands replaced by `w` (R193). -/
theorem Entered.finish_both {s t : State} {n : Nat} (h : Entered s t n) (w : Wire) (e : ErrorCode) :
    ReplacesBoth s (((t.moveSp (-4)).setTosWire w).raiseAndSz e).epilogue w e n := by
  refine ⟨?_, ?_, ?_⟩
  · simp +contextual [Changes, State.raiseAndSz, State.setTosWire_moved, Memory.read_write, h.idx, h.x, h.sp,
      h.cls, h.draws, h.pending, h.returned]
  · simp [State.tosWire, State.raiseAndSz, State.setTosWire_moved]
  · by_cases he : e = .none
    · subst he
      simp [State.raiseAndSz, State.setTosWire_moved, floatStatus, finalStatus, State.zeroBelow, h.status, h.cls]
    · simp [State.raiseAndSz, State.setTosWire_moved, floatStatus, finalStatus, State.zeroBelow, h.status, h.cls, he]

/-- The float operand at TOS replaced by `w` (R210). -/
theorem Entered.finish_top {s t : State} {n : Nat} (h : Entered s t n) (w : Wire) (e : ErrorCode) :
    ReplacesTop s ((t.setTosWire w).raiseAndSz e).epilogue w e n := by
  refine ⟨?_, ?_, ?_⟩
  · simp +contextual [Changes, State.raiseAndSz, State.setTosWire, Memory.read_write, h.idx, h.x, h.sp,
      h.cls, h.draws, h.pending, h.returned]
  · simp [State.tosWire, State.raiseAndSz, State.setTosWire]
  · by_cases he : e = .none
    · subst he
      simp [State.raiseAndSz, State.setTosWire, floatStatus, finalStatus, State.zeroBelow, h.status, h.cls]
    · simp [State.raiseAndSz, State.setTosWire, floatStatus, finalStatus, State.zeroBelow, h.status, h.cls, he]

/-- A rejection leaves the operand (R210). -/
theorem finish_reject (s : State) (c : OpClass) (e : ErrorCode) :
    LeavesOperand s (((s.prologue c).latch .f32).reject e).epilogue e := by
  refine ⟨?_, ?_⟩ <;>
    simp [Changes, State.reject, floatStatus, finalStatus, State.zeroBelow, State.tosWire]

end Sys2Proof.Machine
end

