-- ==== Sys2Proof/Laws/Encoding.lean ====
section
/-! SUPPORT. What the tables of opcode numbers give, for every table: the handler of each number, and the
number left over; and the fields of a command byte. -/

namespace Sys2Proof.Machine
open Sys2Proof

theorem mem_allOpcodes (h : Opcode) : h ∈ allOpcodes := by cases h <;> decide

theorem allNumbers_nodup : allNumbers.Nodup := by decide

/-- A table that gives different handlers different numbers is read back by `handlerOf` (R74). -/
theorem handlerOf_of_injective {table : OpcodeTable} (ht : Function.Injective table) (h : Opcode) :
    handlerOf table (table h) = some h := by
  cases hf : handlerOf table (table h) with
  | none =>
    have := List.find?_eq_none.1 hf h (mem_allOpcodes h)
    simp at this
  | some g =>
    have hg : table g = table h := by simpa using List.find?_some hf
    rw [ht hg]

/-- 31 handlers leave a number without one, under every table (R78). -/
theorem handlerOf_opcUnknown (table : OpcodeTable) : handlerOf table (opcUnknown table) = none := by
  unfold opcUnknown
  cases hf : allNumbers.find? (fun op => (handlerOf table op).isNone) with
  | some op => simpa using List.find?_some hf
  | none =>
    exfalso
    have hsub : allNumbers ⊆ allOpcodes.map table := by
      intro op hop
      have hop' : handlerOf table op ≠ none := by simpa using List.find?_eq_none.1 hf op hop
      obtain ⟨h, hh⟩ := Option.ne_none_iff_exists'.1 hop'
      have := List.find?_some hh
      exact List.mem_map.2 ⟨h, mem_allOpcodes h, by simpa using this⟩
    exact absurd (allNumbers_nodup.subperm hsub).length_le (by simp [allNumbers, allOpcodes])

/-- The decided numbers differ from each other (R76). -/
theorem opc_injective : Function.Injective opc := by
  intro a b hab
  have ha : handlerOf opc (opc a) = some a := by cases a <;> decide
  have hb : handlerOf opc (opc b) = some b := by cases b <;> decide
  rw [hab, hb] at ha
  exact (Option.some.inj ha).symm

end Sys2Proof.Machine

namespace Sys2Proof

@[simp] theorem srField_commandByte (sr : Bool) (cls : BitVec 2) (op : BitVec 5) :
    srField (commandByte sr cls op) = sr := by
  revert sr cls op
  decide

@[simp] theorem classField_commandByte (sr : Bool) (cls : BitVec 2) (op : BitVec 5) :
    classField (commandByte sr cls op) = cls := by
  revert sr cls op
  decide

@[simp] theorem opcodeField_commandByte (sr : Bool) (cls : BitVec 2) (op : BitVec 5) :
    opcodeField (commandByte sr cls op) = op := by
  revert sr cls op
  decide

end Sys2Proof
end

