-- ==== Sys2Proof/Laws/PerInstr.lean ====
section
/-! SUPPORT. What holds of every command as syntax, proved constructor by constructor: it is one byte of
three fields (R70, R81), and its opcode number is the one without a handler exactly when it is the
unknown opcode (R78). -/

namespace Sys2Proof.Laws.OneByte
open Sys2Proof

/-- One byte; UNKNOWN alone has an opcode number that selects no handler. -/
def Statement (i : Instr) : Prop :=
  ∃ sr cls op, encode i = [commandByte sr cls op] ∧
    ((Machine.handlerOf Machine.opc op).isNone = true ↔ ∃ sr' cls', i = .unknown sr' cls')

/-- A command that is not UNKNOWN, under the opcode number of a handler. -/
theorem of_handler {i : Instr} {sr : Bool} {cls : BitVec 2} (h : Opcode)
    (he : encode i = [commandByte sr cls (Machine.opc h)]) (hi : ∀ sr' cls', i ≠ .unknown sr' cls') :
    Statement i :=
  ⟨sr, cls, _, he, by
    have hh : (Machine.handlerOf Machine.opc (Machine.opc h)).isNone = false := by cases h <;> decide
    simp [hh, hi]⟩

theorem nop (sr : Bool) (cls : BitVec 2) : Statement (.nop sr cls) := of_handler .nop rfl (by simp)
theorem sqrt (sr : Bool) (cls : BitVec 2) : Statement (.sqrt sr cls) := of_handler .sqrt rfl (by simp)
theorem sin (sr : Bool) (cls : BitVec 2) : Statement (.sin sr cls) := of_handler .sin rfl (by simp)
theorem cos (sr : Bool) (cls : BitVec 2) : Statement (.cos sr cls) := of_handler .cos rfl (by simp)
theorem tan (sr : Bool) (cls : BitVec 2) : Statement (.tan sr cls) := of_handler .tan rfl (by simp)
theorem asin (sr : Bool) (cls : BitVec 2) : Statement (.asin sr cls) := of_handler .asin rfl (by simp)
theorem acos (sr : Bool) (cls : BitVec 2) : Statement (.acos sr cls) := of_handler .acos rfl (by simp)
theorem atan (sr : Bool) (cls : BitVec 2) : Statement (.atan sr cls) := of_handler .atan rfl (by simp)
theorem log (sr : Bool) (cls : BitVec 2) : Statement (.log sr cls) := of_handler .log rfl (by simp)
theorem ln (sr : Bool) (cls : BitVec 2) : Statement (.ln sr cls) := of_handler .ln rfl (by simp)
theorem exp (sr : Bool) (cls : BitVec 2) : Statement (.exp sr cls) := of_handler .exp rfl (by simp)
theorem pwr (sr : Bool) (cls : BitVec 2) : Statement (.pwr sr cls) := of_handler .pwr rfl (by simp)
theorem addS (sr : Bool) : Statement (.addS sr) := of_handler .add rfl (by simp)
theorem addD (sr : Bool) : Statement (.addD sr) := of_handler .add rfl (by simp)
theorem addReserved (sr : Bool) (cls : BitVec 2) : Statement (.addReserved sr cls) := of_handler .add rfl (by simp)
theorem subS (sr : Bool) : Statement (.subS sr) := of_handler .sub rfl (by simp)
theorem subD (sr : Bool) : Statement (.subD sr) := of_handler .sub rfl (by simp)
theorem subReserved (sr : Bool) (cls : BitVec 2) : Statement (.subReserved sr cls) := of_handler .sub rfl (by simp)
theorem mulS (sr : Bool) : Statement (.mulS sr) := of_handler .mul rfl (by simp)
theorem mulD (sr : Bool) : Statement (.mulD sr) := of_handler .mul rfl (by simp)
theorem mulReserved (sr : Bool) (cls : BitVec 2) : Statement (.mulReserved sr cls) := of_handler .mul rfl (by simp)
theorem divS (sr : Bool) : Statement (.divS sr) := of_handler .div rfl (by simp)
theorem divD (sr : Bool) : Statement (.divD sr) := of_handler .div rfl (by simp)
theorem divReserved (sr : Bool) (cls : BitVec 2) : Statement (.divReserved sr cls) := of_handler .div rfl (by simp)
theorem fadd (sr : Bool) (cls : BitVec 2) : Statement (.fadd sr cls) := of_handler .fadd rfl (by simp)
theorem fsub (sr : Bool) (cls : BitVec 2) : Statement (.fsub sr cls) := of_handler .fsub rfl (by simp)
theorem fmul (sr : Bool) (cls : BitVec 2) : Statement (.fmul sr cls) := of_handler .fmul rfl (by simp)
theorem fdiv (sr : Bool) (cls : BitVec 2) : Statement (.fdiv sr cls) := of_handler .fdiv rfl (by simp)
theorem chsS (sr : Bool) : Statement (.chsS sr) := of_handler .chs rfl (by simp)
theorem chsD (sr : Bool) : Statement (.chsD sr) := of_handler .chs rfl (by simp)
theorem chsF (sr : Bool) (cls : BitVec 2) : Statement (.chsF sr cls) := of_handler .chs rfl (by simp)
theorem chsf (sr : Bool) (cls : BitVec 2) : Statement (.chsf sr cls) := of_handler .chsf rfl (by simp)
theorem muuS (sr : Bool) : Statement (.muuS sr) := of_handler .muu rfl (by simp)
theorem muuD (sr : Bool) : Statement (.muuD sr) := of_handler .muu rfl (by simp)
theorem muuReserved (sr : Bool) (cls : BitVec 2) : Statement (.muuReserved sr cls) := of_handler .muu rfl (by simp)
theorem ptoS (sr : Bool) : Statement (.ptoS sr) := of_handler .pto rfl (by simp)
theorem ptoD (sr : Bool) : Statement (.ptoD sr) := of_handler .pto rfl (by simp)
theorem ptoF (sr : Bool) (cls : BitVec 2) : Statement (.ptoF sr cls) := of_handler .pto rfl (by simp)
theorem popS (sr : Bool) : Statement (.popS sr) := of_handler .pop rfl (by simp)
theorem popD (sr : Bool) : Statement (.popD sr) := of_handler .pop rfl (by simp)
theorem popF (sr : Bool) (cls : BitVec 2) : Statement (.popF sr cls) := of_handler .pop rfl (by simp)
theorem xchS (sr : Bool) : Statement (.xchS sr) := of_handler .xch rfl (by simp)
theorem xchD (sr : Bool) : Statement (.xchD sr) := of_handler .xch rfl (by simp)
theorem xchF (sr : Bool) (cls : BitVec 2) : Statement (.xchF sr cls) := of_handler .xch rfl (by simp)
theorem pupi (sr : Bool) (cls : BitVec 2) : Statement (.pupi sr cls) := of_handler .pupi rfl (by simp)
theorem unknown (sr : Bool) (cls : BitVec 2) : Statement (.unknown sr cls) :=
  ⟨sr, cls, _, rfl, by
    have hh : (Machine.handlerOf Machine.opc (Machine.opcUnknown Machine.opc)).isNone = true := by decide
    simp [hh]⟩
theorem fltd (sr : Bool) (cls : BitVec 2) : Statement (.fltd sr cls) := of_handler .fltd rfl (by simp)
theorem flts (sr : Bool) (cls : BitVec 2) : Statement (.flts sr cls) := of_handler .flts rfl (by simp)
theorem fixd (sr : Bool) (cls : BitVec 2) : Statement (.fixd sr cls) := of_handler .fixd rfl (by simp)
theorem fixs (sr : Bool) (cls : BitVec 2) : Statement (.fixs sr cls) := of_handler .fixs rfl (by simp)

end Sys2Proof.Laws.OneByte
end

