-- ==== Sys2Proof/Laws/Rounding.lean ====
section
/-! SUPPORT. The exact part of the float commands: the exponent of a rational and the rounding of its
mantissa, each said once for every choice of the open parameter `FRound`. -/

namespace Sys2Proof.Machine
open Sys2Proof

/-- `binaryExponent n d` is the exponent of `n / d` (R191). -/
theorem binaryExponent_spec (n d : Nat) (hn : n ≠ 0) (hd : d ≠ 0) :
   (2:ℚ)^(binaryExponent n d) ≤ n / d ∧ (n : ℚ)/d < (2:ℚ)^(binaryExponent n d + 1) := by
  have dpos : (0:ℚ) < d := by positivity
  obtain ⟨a, ha⟩ : ∃ a, a = n.log2 := ⟨_, rfl⟩
  obtain ⟨b, hb⟩ : ∃ b, b = d.log2 := ⟨_, rfl⟩
  have n1 : 2 ^ a ≤ n := ha ▸ Nat.log2_self_le hn
  have n2 : n < 2 ^ (a+1) := ha ▸ Nat.lt_log2_self
  have d1 : 2 ^ b ≤ d := hb ▸ Nat.log2_self_le hd
  have d2 : d < 2 ^ (b+1) := hb ▸ Nat.lt_log2_self
  have n1' : (2:ℚ)^(a:ℤ) ≤ n := by exact_mod_cast n1
  have n2' : (n:ℚ) < (2:ℚ)^(a+1:ℤ) := by exact_mod_cast n2
  have d1' : (2:ℚ)^(b:ℤ) ≤ d := by exact_mod_cast d1
  have d2' : (d:ℚ) < (2:ℚ)^(b+1:ℤ) := by exact_mod_cast d2
  have key : (d * 2 ^ ((a:ℤ) - b).toNat ≤ n * 2 ^ (-((a:ℤ) - b)).toNat) ↔ (2:ℚ)^((a:ℤ)-b) ≤ n / d := by
    rw [le_div_iff₀ dpos]
    rcases le_total b a with h | h
    · obtain ⟨m, rfl⟩ := Nat.exists_eq_add_of_le h
      have e1 : ((b + m : ℕ) : ℤ) - b = m := by push_cast; ring
      rw [e1, zpow_natCast]
      simp
      rw [mul_comm]
      exact_mod_cast Iff.rfl
    · obtain ⟨m, rfl⟩ := Nat.exists_eq_add_of_le h
      have e1 : (a:ℤ) - ((a + m : ℕ) : ℤ) = -m := by push_cast; ring
      rw [e1, zpow_neg, zpow_natCast]
      simp
      rw [inv_mul_le_iff₀ (by positivity), mul_comm]
      exact_mod_cast Iff.rfl
  unfold binaryExponent
  simp only [← ha, ← hb]
  split
  · rename_i h
    refine ⟨key.1 h, ?_⟩
    rw [div_lt_iff₀ dpos]
    calc (n:ℚ) < (2:ℚ)^(a+1:ℤ) := n2'
      _ = (2:ℚ)^((a:ℤ) - b + 1) * (2:ℚ)^(b:ℤ) := by rw [← zpow_add₀ (by norm_num)]; ring_nf
      _ ≤ _ := by gcongr
  · rename_i h
    have h' := fun hh => h (key.2 hh)
    refine ⟨?_, ?_⟩
    · rw [le_div_iff₀ dpos]
      calc (2:ℚ)^((a:ℤ)-b-1) * d ≤ (2:ℚ)^((a:ℤ)-b-1) * (2:ℚ)^(b+1:ℤ) := by gcongr
       _ = (2:ℚ)^(a:ℤ) := by rw [← zpow_add₀ (by norm_num)]; ring_nf
       _ ≤ n := n1'
    · rw [sub_add_cancel]; exact not_le.1 h'

/-- A positive rational has one binary exponent. -/
theorem exponent_unique (r : ℚ) (j k : ℤ) (h1 : (2:ℚ)^k ≤ r) (h2 : r < (2:ℚ)^(k+1)) (h3 : (2:ℚ)^j ≤ r) (h4 : r < (2:ℚ)^(j+1)) : j = k := by
  have a := (zpow_lt_zpow_iff_right₀ (by norm_num : (1:ℚ) < 2)).1 (lt_of_le_of_lt h1 h4)
  have b := (zpow_lt_zpow_iff_right₀ (by norm_num : (1:ℚ) < 2)).1 (lt_of_le_of_lt h3 h2)
  omega

/-- `FRound24`, for every `FRound` (R191): the mantissa has its leading one, the rounded value is within one
unit, it is the value itself where that is a multiple of the unit, and the exponent grows by at most 1. -/
theorem round24_spec (sg : Bool) (m : ℚ) (k : ℤ) (h1 : (2:ℚ)^k ≤ m) (h2 : m < (2:ℚ)^(k+1)) :
   ∃ M : ℕ, (round24 sg m k).1.toNat = M ∧ 2^23 ≤ M ∧ M < 2^24 ∧
     |(M:ℚ) * (2:ℚ)^((round24 sg m k).2 - 23) - m| < (2:ℚ)^(k-23) ∧
     ((∃ n : ℤ, m = n * (2:ℚ)^(k-23)) → (M:ℚ) * (2:ℚ)^((round24 sg m k).2 - 23) = m) ∧
     ((round24 sg m k).2 = k ∨ (round24 sg m k).2 = k+1) := by
  obtain ⟨q, hq⟩ : ∃ q, q = scaledMantissa m k := ⟨_, rfl⟩
  have hqv : q = m * (2:ℚ)^(23-k) := by rw [hq, scaledMantissa, scale_eq]; simp
  have hm : m = q * (2:ℚ)^(k-23) := by
    rw [hqv, mul_assoc, ← zpow_add₀ (by norm_num)]; simp
  have q1 : (2:ℚ)^23 ≤ q := by
    rw [hqv]
    calc (2:ℚ)^23 = (2:ℚ)^k * (2:ℚ)^(23-k) := by rw [← zpow_add₀ (by norm_num)]; norm_num
      _ ≤ _ := by gcongr
  have q2 : q < (2:ℚ)^24 := by
    rw [hqv]
    calc m * (2:ℚ)^(23-k) < (2:ℚ)^(k+1) * (2:ℚ)^(23-k) := by gcongr
      _ = (2:ℚ)^24 := by rw [← zpow_add₀ (by norm_num)]; ring_nf; norm_cast
  obtain ⟨f, hf⟩ : ∃ f, f = q.floor.toNat := ⟨_, rfl⟩
  have fl : (q.floor : ℤ) = ⌊q⌋ := rfl
  have f0 : (f : ℤ) = ⌊q⌋ := by
    rw [hf, fl]; apply Int.toNat_of_nonneg; apply Int.floor_nonneg.2; linarith [show (0:ℚ) ≤ 2^23 by norm_num]
  have f0' : (f : ℚ) = (⌊q⌋ : ℚ) := by exact_mod_cast f0
  have f1 : 2^23 ≤ f := by
    have : (2^23 : ℤ) ≤ ⌊q⌋ := Int.le_floor.2 (by exact_mod_cast q1)
    omega
  have f2 : f < 2^24 := by
    have : ⌊q⌋ < (2^24 : ℤ) := Int.floor_lt.2 (by exact_mod_cast q2)
    omega
  have f3 : (f:ℚ) ≤ q := by rw [f0']; exact Int.floor_le q
  have f4 : q < f + 1 := by rw [f0']; exact Int.lt_floor_add_one q
  have den : q.den = 1 → (f:ℚ) = q := by
    intro h
    have : q = (q.num : ℚ) := (Rat.den_eq_one_iff q).1 h |>.symm
    rw [f0', this]; simp
  have den2 : (∃ n : ℤ, m = n * (2:ℚ)^(k-23)) → q.den = 1 := by
    rintro ⟨n, hn⟩
    have : q = n := by
      have hp : (2:ℚ)^(k-23) ≠ 0 := by positivity
      apply mul_right_cancel₀ hp; rw [← hm, hn]
    rw [this]; simp
  have pos : (0:ℚ) < (2:ℚ)^(k-23) := by positivity
  have main : ∀ (M : ℕ), |(M:ℚ) - q| < 1 → |(M:ℚ) * (2:ℚ)^(k - 23) - m| < (2:ℚ)^(k-23) := by
    intro M hM
    rw [hm, ← sub_mul, abs_mul, abs_of_pos pos]
    nlinarith
  have fq : |(f:ℚ) - q| < 1 := by rw [abs_lt]; constructor <;> linarith
  unfold round24
  simp only [← hq, ← hf]
  by_cases hd : q.den = 1
  · rw [if_pos hd, if_neg (by omega)]
    refine ⟨f, ?_, f1, f2, main f fq, fun _ => by rw [den hd]; exact hm.symm, Or.inl rfl⟩
    simpa using f2
  · rw [if_neg hd]
    have ne : (f:ℚ) ≠ q := by
      intro h; apply hd; rw [← h]; simp
    split
    · have fq1 : |((f+1 : ℕ):ℚ) - q| < 1 := by
        push_cast; rw [abs_lt]; constructor
        · linarith
        · have := lt_of_le_of_ne f3 ne; linarith
      split
      · rename_i h24
        refine ⟨2^23, by simp, by norm_num, by norm_num, ?_, fun h => absurd (den2 h) hd, Or.inr rfl⟩
        have := main _ fq1
        rw [h24] at this
        convert this using 3
        rw [show k + 1 - 23 = (k - 23) + 1 by ring, zpow_add₀ (by norm_num)]; push_cast; ring
      · rename_i h24
        refine ⟨f+1, ?_, by omega, by omega, main _ fq1, fun h => absurd (den2 h) hd, Or.inl rfl⟩
        simp; omega
    · rw [if_neg (by omega)]
      refine ⟨f, ?_, f1, f2, main f fq, fun h => absurd (den2 h) hd, Or.inl rfl⟩
      simpa using f2

end Sys2Proof.Machine
end

