-- ==== Sys2Proof/Tests/Slice0.lean ====
section
/-! SUPPORT. Tests. Expected values are those of spec/95_test_vectors.md (Parts 1 and 2) and of the byte
lists of spec/30_encoding.md R77 and R79; none is the model's own answer. Each test takes one step. The
`witness_` theorems show, for each obligation with hypotheses, operands and states that meet them, at the
boundary values of each clause. -/

namespace Sys2Proof.Tests
open Sys2Proof Sys2Proof.Machine

-- Each test is elaborated in turn: a kernel evaluation waits for the earlier ones, and one waiting thread for
-- each test is more than the build allows.
set_option Elab.async false

/-- The device after reset and a list of pushes. -/
def loaded (bytes : List Byte) : State := pushAll State.reset bytes

/-- The state in which a command byte is the next transaction. -/
def commanded (bytes : List Byte) (c : Byte) : State := { loaded bytes with pending := [.command c] }

/-- The stack from cell 0 up to the pointer, the pointer and the status after one step. -/
def outcome (bytes : List Byte) (c : Byte) : Option (List Byte × Nat × BitVec 8) :=
  match step (commanded bytes c) with
  | .next t => some ((List.range t.sp.toNat).map t.x.read, t.sp.toNat, t.status)
  | .fault _ => none
  | .refused _ => none

/-! ### WellFormed: one ill-formed term for each check -/

theorem test_illFormed_chsF : (Instr.chsF false 0b11).wellFormed = false := by decide
theorem test_illFormed_ptoF : (Instr.ptoF false 0b11).wellFormed = false := by decide
theorem test_illFormed_popF : (Instr.popF false 0b11).wellFormed = false := by decide
theorem test_illFormed_xchF : (Instr.xchF false 0b11).wellFormed = false := by decide
theorem test_illFormed_addReserved : (Instr.addReserved false 0b10).wellFormed = false := by decide
theorem test_illFormed_subReserved : (Instr.subReserved false 0b11).wellFormed = false := by decide
theorem test_illFormed_mulReserved : (Instr.mulReserved false 0b10).wellFormed = false := by decide
theorem test_illFormed_divReserved : (Instr.divReserved false 0b10).wellFormed = false := by decide
theorem test_illFormed_muuReserved : (Instr.muuReserved false 0b10).wellFormed = false := by decide
theorem test_wellFormed_chsF : (Instr.chsF true 0b01).wellFormed = true := by decide

/-! ### Decoding: every constructor, by a byte of R77's lists -/

theorem test_decode_noHandler :
    decode [0x20] = .ok (.nop false 0b01) ∧
    decode [0x5B] = .ok (.unknown false 0b10) := by
  decide
theorem test_decode_derived1 :
    decode [0x61] = .ok (.sqrt false 0b11) ∧
    decode [0x02] = .ok (.sin false 0b00) ∧
    decode [0x23] = .ok (.cos false 0b01) ∧
    decode [0x44] = .ok (.tan false 0b10) ∧
    decode [0x65] = .ok (.asin false 0b11) ∧
    decode [0x06] = .ok (.acos false 0b00) := by
  decide
theorem test_decode_derived2 :
    decode [0x27] = .ok (.atan false 0b01) ∧
    decode [0x48] = .ok (.log false 0b10) ∧
    decode [0x69] = .ok (.ln false 0b11) ∧
    decode [0x0A] = .ok (.exp false 0b00) ∧
    decode [0x2B] = .ok (.pwr false 0b01) := by
  decide
theorem test_decode_float :
    decode [0x50] = .ok (.fadd false 0b10) ∧
    decode [0x71] = .ok (.fsub false 0b11) ∧
    decode [0x12] = .ok (.fmul false 0b00) ∧
    decode [0x33] = .ok (.fdiv false 0b01) := by
  decide
theorem test_decode_conversions :
    decode [0x5C] = .ok (.fltd false 0b10) ∧
    decode [0x7D] = .ok (.flts false 0b11) ∧
    decode [0x1E] = .ok (.fixd false 0b00) ∧
    decode [0x3F] = .ok (.fixs false 0b01) := by
  decide
theorem test_decode_integer16 :
    decode [0x6C] = .ok (.addS false) ∧
    decode [0x6D] = .ok (.subS false) ∧
    decode [0x6E] = .ok (.mulS false) ∧
    decode [0x6F] = .ok (.divS false) ∧
    decode [0x76] = .ok (.muuS false) := by
  decide
theorem test_decode_integer32 :
    decode [0x4C] = .ok (.addD false) ∧
    decode [0x4D] = .ok (.subD false) ∧
    decode [0x4E] = .ok (.mulD false) ∧
    decode [0x4F] = .ok (.divD false) ∧
    decode [0x56] = .ok (.muuD false) := by
  decide
theorem test_decode_stack16 :
    decode [0x74] = .ok (.chsS false) ∧
    decode [0x77] = .ok (.ptoS false) ∧
    decode [0x78] = .ok (.popS false) ∧
    decode [0x79] = .ok (.xchS false) := by
  decide
theorem test_decode_stack32 :
    decode [0x54] = .ok (.chsD false) ∧
    decode [0x57] = .ok (.ptoD false) ∧
    decode [0x58] = .ok (.popD false) ∧
    decode [0x59] = .ok (.xchD false) := by
  decide
theorem test_decode_stackFloat :
    decode [0x14] = .ok (.chsF false 0b00) ∧
    decode [0x37] = .ok (.ptoF false 0b01) ∧
    decode [0x18] = .ok (.popF false 0b00) ∧
    decode [0x39] = .ok (.xchF false 0b01) ∧
    decode [0x15] = .ok (.chsf false 0b00) ∧
    decode [0x3A] = .ok (.pupi false 0b01) := by
  decide
theorem test_decode_reserved :
    decode [0x0C] = .ok (.addReserved false 0b00) ∧
    decode [0x2D] = .ok (.subReserved false 0b01) ∧
    decode [0x0E] = .ok (.mulReserved false 0b00) ∧
    decode [0x2F] = .ok (.divReserved false 0b01) ∧
    decode [0x16] = .ok (.muuReserved false 0b00) := by
  decide
theorem test_decode_withSR : decode [0xEC] = .ok (.addS true) ∧ decode [0x80] = .ok (.nop true 0b00) := by decide
theorem test_decode_noByte : decode [] = .error .noByte := by decide
theorem test_decode_twoBytes : decode [0x6C, 0x00] = .error .moreThanOneByte := by decide
/-- R78: under the decided table the one number without a handler is 0x1B. -/
theorem test_opcUnknown : opcUnknown opc = 0x1B := by decide
/-- Under another table (every number one higher) the number left over follows it. -/
theorem test_opcUnknownElsewhere : opcUnknown (fun h => opc h + 1) = 0x1C := by decide
theorem test_decodeElsewhere : decodeUnder (fun h => opc h + 1) [0x6D] = .ok (.addS false) := by decide
theorem test_decodeTableWord : decodeTableWord 8 0x6C = some (.addS false) := by decide

/-! ### One step of each command (spec/95_test_vectors.md Part 2) -/

/-- NOP clears flags, even with a negative operand on top -/
theorem test_nop :
    outcome [0x00, 0x80] 0x00 = some ([0x00, 0x80], 2, 0x00) := by
  decide +kernel
/-- unknown opcode, other class bits -/
theorem test_unknown :
    outcome [0x00, 0x80] 0x7B = some ([0x00, 0x80], 2, 0x00) := by
  decide +kernel
/-- CHS.S 0x0001 -/
theorem test_chsS :
    outcome [0x01, 0x00] 0x74 = some ([0xFF, 0xFF], 2, 0x40) := by
  decide +kernel
/-- CHS.S 0x8000 (OVF, no-op) -/
theorem test_chsS_ovf :
    outcome [0x00, 0x80] 0x74 = some ([0x00, 0x80], 2, 0x42) := by
  decide +kernel
/-- CHS.D 0x7FFFFFFF -/
theorem test_chsD :
    outcome [0xFF, 0xFF, 0xFF, 0x7F] 0x54 = some ([0x01, 0x00, 0x00, 0x80], 4, 0x40) := by
  decide +kernel
/-- CHS.D 0x80000000 (OVF) -/
theorem test_chsD_ovf :
    outcome [0x00, 0x00, 0x00, 0x80] 0x54 = some ([0x00, 0x00, 0x00, 0x80], 4, 0x42) := by
  decide +kernel
/-- CHS.F -π, class 01 -/
theorem test_chsF :
    outcome [0xDA, 0x0F, 0xC9, 0x82] 0x34 = some ([0xDA, 0x0F, 0xC9, 0x02], 4, 0x00) := by
  decide +kernel
/-- CHS.F non-canonical zero (unchanged; SIGN read from byte3) -/
theorem test_chsF_zero :
    outcome [0x00, 0x00, 0x00, 0x80] 0x14 = some ([0x00, 0x00, 0x00, 0x80], 4, 0x60) := by
  decide +kernel
/-- CHSF 5.0 with class bits 11 (ignored) -/
theorem test_chsf :
    outcome [0x00, 0x00, 0xA0, 0x03] 0x75 = some ([0x00, 0x00, 0xA0, 0x83], 4, 0x40) := by
  decide +kernel
/-- PUPI, class bits 11 ignored -/
theorem test_pupi :
    outcome [] 0x7A = some ([0xDA, 0x0F, 0xC9, 0x02], 4, 0x00) := by
  decide +kernel
/-- PTO.S -/
theorem test_ptoS :
    outcome [0x34, 0x12] 0x77 = some ([0x34, 0x12, 0x34, 0x12], 4, 0x00) := by
  decide +kernel
/-- PTO.D -/
theorem test_ptoD :
    outcome [0x00, 0x00, 0x00, 0x80] 0x57 = some ([0x00, 0x00, 0x00, 0x80, 0x00, 0x00, 0x00, 0x80], 8, 0x40) := by
  decide +kernel
/-- PTO.F -/
theorem test_ptoF :
    outcome [0xDA, 0x0F, 0xC9, 0x02] 0x17 = some ([0xDA, 0x0F, 0xC9, 0x02, 0xDA, 0x0F, 0xC9, 0x02], 8, 0x00) := by
  decide +kernel
/-- POP.S from sp = 2 wraps to the reset zeros -/
theorem test_popS :
    outcome [0x00, 0x00] 0x78 = some ([], 0, 0x20) := by
  decide +kernel
/-- POP.D -/
theorem test_popD :
    outcome [0xFF, 0xFF, 0xFF, 0xFF, 0x01, 0x00, 0x00, 0x00] 0x58 = some ([0xFF, 0xFF, 0xFF, 0xFF], 4, 0x40) := by
  decide +kernel
/-- POP.F exposing the I32 0x00010002: ZERO = 1 although not zero (quirk) -/
theorem test_popF :
    outcome [0x02, 0x00, 0x01, 0x00, 0x00, 0x00, 0x80, 0x01] 0x18 = some ([0x02, 0x00, 0x01, 0x00], 4, 0x20) := by
  decide +kernel
/-- XCH.S -/
theorem test_xchS :
    outcome [0x01, 0x00, 0x02, 0x00] 0x79 = some ([0x02, 0x00, 0x01, 0x00], 4, 0x00) := by
  decide +kernel
/-- XCH.D -/
theorem test_xchD :
    outcome [0x00, 0x00, 0x00, 0x00, 0xFF, 0xFF, 0xFF, 0xFF] 0x59 = some ([0xFF, 0xFF, 0xFF, 0xFF, 0x00, 0x00, 0x00, 0x00], 8, 0x20) := by
  decide +kernel
/-- XCH.F -/
theorem test_xchF :
    outcome [0x00, 0x00, 0xA0, 0x83, 0xDA, 0x0F, 0xC9, 0x02] 0x19 = some ([0xDA, 0x0F, 0xC9, 0x02, 0x00, 0x00, 0xA0, 0x83], 8, 0x40) := by
  decide +kernel
/-- FLTS -32768 -/
theorem test_flts :
    outcome [0x00, 0x80] 0x1D = some ([0x00, 0x00, 0x80, 0x90], 4, 0x40) := by
  decide +kernel
/-- FLTS 0 -/
theorem test_flts_zero :
    outcome [0x00, 0x00] 0x1D = some ([0x00, 0x00, 0x00, 0x00], 4, 0x20) := by
  decide +kernel
/-- FLTD 2^24 - 1 (largest exact odd) -/
theorem test_fltd :
    outcome [0xFF, 0xFF, 0xFF, 0x00] 0x1C = some ([0xFF, 0xFF, 0xFF, 0x18], 4, 0x00) := by
  decide +kernel
/-- FLTD -2^31 -/
theorem test_fltd_least :
    outcome [0x00, 0x00, 0x00, 0x80] 0x1C = some ([0x00, 0x00, 0x80, 0xA0], 4, 0x40) := by
  decide +kernel
/-- FIXS -32768.5 (in range after truncation) -/
theorem test_fixs :
    outcome [0x80, 0x00, 0x80, 0x90] 0x1F = some ([0x00, 0x80], 2, 0x40) := by
  decide +kernel
/-- FIXS -32769 (OVF) -/
theorem test_fixs_ovf :
    outcome [0x00, 0x01, 0x80, 0x90] 0x1F = some ([0x00, 0x01, 0x80, 0x90], 4, 0x42) := by
  decide +kernel
/-- FIXD 2^31 - 128 (largest that passes) -/
theorem test_fixd :
    outcome [0xFF, 0xFF, 0xFF, 0x1F] 0x1E = some ([0x80, 0xFF, 0xFF, 0x7F], 4, 0x00) := by
  decide +kernel
/-- FIXD 2^31 (OVF) -/
theorem test_fixd_ovf :
    outcome [0x00, 0x00, 0x80, 0x20] 0x1E = some ([0x00, 0x00, 0x80, 0x20], 4, 0x02) := by
  decide +kernel
/-- ADD.S 8000 + FFFF (CARRY, OVF) -/
theorem test_addS :
    outcome [0x00, 0x80, 0xFF, 0xFF] 0x6C = some ([0xFF, 0x7F], 2, 0x03) := by
  decide +kernel
/-- ADD.S 7FFF + 7FFF (OVF) -/
theorem test_addS_ovf :
    outcome [0xFF, 0x7F, 0xFF, 0x7F] 0x6C = some ([0xFE, 0xFF], 2, 0x42) := by
  decide +kernel
/-- SUB.S 3 - 5 (borrow) -/
theorem test_subS :
    outcome [0x03, 0x00, 0x05, 0x00] 0x6D = some ([0xFE, 0xFF], 2, 0x41) := by
  decide +kernel
/-- SUB.S 7FFF - FFFF (borrow, OVF) -/
theorem test_subS_ovf :
    outcome [0xFF, 0x7F, 0xFF, 0xFF] 0x6D = some ([0x00, 0x80], 2, 0x43) := by
  decide +kernel
/-- MUL.S -300 * 300 (OVF) -/
theorem test_mulS :
    outcome [0xD4, 0xFE, 0x2C, 0x01] 0x6E = some ([0x70, 0xA0], 2, 0x42) := by
  decide +kernel
/-- MUL.S 0x4000 * 2 (blind spot U5: no OVF) -/
theorem test_mulS_blind :
    outcome [0x00, 0x40, 0x02, 0x00] 0x6E = some ([0x00, 0x80], 2, 0x40) := by
  decide +kernel
/-- MUU.S -300 * 300 -/
theorem test_muuS :
    outcome [0xD4, 0xFE, 0x2C, 0x01] 0x76 = some ([0xFE, 0xFF], 2, 0x40) := by
  decide +kernel
/-- DIV.S -7 / 2 -/
theorem test_divS :
    outcome [0xF9, 0xFF, 0x02, 0x00] 0x6F = some ([0xFD, 0xFF], 2, 0x40) := by
  decide +kernel
/-- DIV.S 5 / 0 (DIV0, unmodified) -/
theorem test_divS_zero :
    outcome [0x05, 0x00, 0x00, 0x00] 0x6F = some ([0x05, 0x00, 0x00, 0x00], 4, 0x30) := by
  decide +kernel
/-- ADD.D 0000FFFF + 1 (inner carry not reported) -/
theorem test_addD :
    outcome [0xFF, 0xFF, 0x00, 0x00, 0x01, 0x00, 0x00, 0x00] 0x4C = some ([0x00, 0x00, 0x01, 0x00], 4, 0x00) := by
  decide +kernel
/-- ADD.D 80000000 + 80000000 -/
theorem test_addD_ovf :
    outcome [0x00, 0x00, 0x00, 0x80, 0x00, 0x00, 0x00, 0x80] 0x4C = some ([0x00, 0x00, 0x00, 0x00], 4, 0x23) := by
  decide +kernel
/-- SUB.D 00010000 - 1 (inner borrow not reported) -/
theorem test_subD :
    outcome [0x00, 0x00, 0x01, 0x00, 0x01, 0x00, 0x00, 0x00] 0x4D = some ([0xFF, 0xFF, 0x00, 0x00], 4, 0x00) := by
  decide +kernel
/-- SUB.D 7FFFFFFF - FFFFFFFF (borrow, OVF) -/
theorem test_subD_borrow :
    outcome [0xFF, 0xFF, 0xFF, 0x7F, 0xFF, 0xFF, 0xFF, 0xFF] 0x4D = some ([0x00, 0x00, 0x00, 0x80], 4, 0x43) := by
  decide +kernel
/-- MUL.D 100000 * 100000 (OVF) -/
theorem test_mulD :
    outcome [0xA0, 0x86, 0x01, 0x00, 0xA0, 0x86, 0x01, 0x00] 0x4E = some ([0x00, 0xE4, 0x0B, 0x54], 4, 0x02) := by
  decide +kernel
/-- MUU.D -1 * 2 -/
theorem test_muuD :
    outcome [0xFF, 0xFF, 0xFF, 0xFF, 0x02, 0x00, 0x00, 0x00] 0x56 = some ([0xFF, 0xFF, 0xFF, 0xFF], 4, 0x40) := by
  decide +kernel
/-- DIV.D -1000000 / 7 -/
theorem test_divD :
    outcome [0xC0, 0xBD, 0xF0, 0xFF, 0x07, 0x00, 0x00, 0x00] 0x4F = some ([0xF7, 0xD1, 0xFD, 0xFF], 4, 0x40) := by
  decide +kernel
/-- DIV.D 1 / 0 (DIV0, unmodified) -/
theorem test_divD_zero :
    outcome [0x01, 0x00, 0x00, 0x00, 0x00, 0x00, 0x00, 0x00] 0x4F = some ([0x01, 0x00, 0x00, 0x00, 0x00, 0x00, 0x00, 0x00], 8, 0x30) := by
  decide +kernel
/-- FADD max + max (OVF, fold: ea 64 to -64) -/
theorem test_fadd :
    outcome [0xFF, 0xFF, 0xFF, 0x3F, 0xFF, 0xFF, 0xFF, 0x3F] 0x10 = some ([0xFF, 0xFF, 0xFF, 0x40], 4, 0x02) := by
  decide +kernel
/-- FADD 5 + (-5) (positive zero) -/
theorem test_fadd_cancel :
    outcome [0x00, 0x00, 0xA0, 0x03, 0x00, 0x00, 0xA0, 0x83] 0x10 = some ([0x00, 0x00, 0x00, 0x00], 4, 0x20) := by
  decide +kernel
/-- FSUB 1.5·2^-65 - 2^-65 = 2^-66 (UND, fold: ea -65 to 63) -/
theorem test_fsub :
    outcome [0x00, 0x00, 0xC0, 0x40, 0x00, 0x00, 0x80, 0x40] 0x11 = some ([0x00, 0x00, 0x80, 0x3F], 4, 0x04) := by
  decide +kernel
/-- FSUB 3 - 5 -/
theorem test_fsub_order :
    outcome [0x00, 0x00, 0xC0, 0x02, 0x00, 0x00, 0xA0, 0x03] 0x11 = some ([0x00, 0x00, 0x80, 0x82], 4, 0x40) := by
  decide +kernel
/-- FMUL min * min (UND: ea -129 to -1) -/
theorem test_fmul :
    outcome [0x00, 0x00, 0x80, 0x40, 0x00, 0x00, 0x80, 0x40] 0x12 = some ([0x00, 0x00, 0x80, 0x7F], 4, 0x04) := by
  decide +kernel
/-- FMUL -3 * 7 -/
theorem test_fmul_sign :
    outcome [0x00, 0x00, 0xC0, 0x82, 0x00, 0x00, 0xE0, 0x03] 0x12 = some ([0x00, 0x00, 0xA8, 0x85], 4, 0x40) := by
  decide +kernel
/-- FDIV 7 / 2 -/
theorem test_fdiv :
    outcome [0x00, 0x00, 0xE0, 0x03, 0x00, 0x00, 0x80, 0x02] 0x13 = some ([0x00, 0x00, 0xE0, 0x02], 4, 0x00) := by
  decide +kernel
/-- FDIV -5 / non-canonical zero (DIV0, SIGN of numerator) -/
theorem test_fdiv_zero :
    outcome [0x00, 0x00, 0xA0, 0x83, 0x01, 0x02, 0x03, 0x84] 0x13 = some ([0x00, 0x00, 0xA0, 0x83], 4, 0x50) := by
  decide +kernel
/-- SQRT -5 (NEG) -/
theorem test_sqrt_neg :
    outcome [0x00, 0x00, 0xA0, 0x83] 0x01 = some ([0x00, 0x00, 0xA0, 0x83], 4, 0x48) := by
  decide +kernel
/-- LN -1 (NEG) -/
theorem test_ln_neg :
    outcome [0x00, 0x00, 0x80, 0x81] 0x09 = some ([0x00, 0x00, 0x80, 0x81], 4, 0x48) := by
  decide +kernel
/-- LOG -1 (NEG) -/
theorem test_log_neg :
    outcome [0x00, 0x00, 0x80, 0x81] 0x08 = some ([0x00, 0x00, 0x80, 0x81], 4, 0x48) := by
  decide +kernel
/-- ASIN 1 + 2^-23 (smallest rejected) -/
theorem test_asin_arg :
    outcome [0x01, 0x00, 0x80, 0x01] 0x05 = some ([0x01, 0x00, 0x80, 0x01], 4, 0x18) := by
  decide +kernel
/-- ACOS -2 (ARG, SIGN) -/
theorem test_acos_arg :
    outcome [0x00, 0x00, 0x80, 0x82] 0x06 = some ([0x00, 0x00, 0x80, 0x82], 4, 0x58) := by
  decide +kernel
/-- EXP -33 (ARG, SIGN) -/
theorem test_exp_arg :
    outcome [0x00, 0x00, 0x84, 0x86] 0x0A = some ([0x00, 0x00, 0x84, 0x86], 4, 0x58) := by
  decide +kernel
/-- TAN -2^-13 (magnitude below threshold) -/
theorem test_tan_small :
    outcome [0x00, 0x00, 0x80, 0xF4] 0x04 = some ([0x00, 0x00, 0x80, 0xF4], 4, 0x40) := by
  decide +kernel
/-- TAN 0 -/
theorem test_tan_zero :
    outcome [0x00, 0x00, 0x00, 0x00] 0x04 = some ([0x00, 0x00, 0x00, 0x00], 4, 0x20) := by
  decide +kernel
/-- PWR B = -2, A = 2 (NEG, nothing consumed) -/
theorem test_pwr_neg :
    outcome [0x00, 0x00, 0x80, 0x82, 0x00, 0x00, 0x80, 0x02] 0x0B = some ([0x00, 0x00, 0x80, 0x82, 0x00, 0x00, 0x80, 0x02], 8, 0x08) := by
  decide +kernel
/-- ADD under a float class (Part 2.1). -/
theorem test_addReserved :
    step (commanded [0x01, 0x00, 0x01, 0x00] 0x0C) = .refused (.reservedEncoding "ADD.reserved") := by rfl
/-- MUU under float class 01 (Part 2.1). -/
theorem test_muuReserved :
    step (commanded [0x01, 0x00, 0x01, 0x00] 0x36) = .refused (.reservedEncoding "MUU.reserved") := by rfl
/-- The other values of INT_OP_FLOAT_CLASS (R79): a no-op leaves the stack, and the 32-bit handler adds as
the vector ADD.D 0000FFFF + 1 of Part 2.6. -/
theorem test_reservedAsNoop : (match integerUnderFloat .noop "" State.addHandler32 0b01 (loaded [0x01, 0x00]) with
    | .next t => (t.sp, t.x, t.status) | _ => (0, [], 0xFF)) =
    ((2, [(0, 0x01)], 0x00) : BitVec 4 × Memory × BitVec 8) := by decide +kernel
theorem test_reservedAsI32 : (match integerUnderFloat .asI32 "" State.addHandler32 0b01
      (loaded [0xFF, 0xFF, 0x00, 0x00, 0x01, 0x00, 0x00, 0x00]) with
    | .next t => (t.sp, t.tos32, t.status) | _ => (0, 0, 0xFF)) =
    ((4, 0x00010000, 0x00) : BitVec 4 × Word32 × BitVec 8) := by decide +kernel
/-- LN 0 and PWR B = 0, A = 2 of Part 2.8: refused (U11) under the value refuse of LOG_ZERO. -/
theorem test_lnZeroRefused :
    (match logarithmUnder .refuse "LN" .ln 0b00 (loaded [0x00, 0x00, 0x00, 0x00]) with
      | .refused r => some r | _ => none) = some (.logarithmOfZero "LN") := by
  decide +kernel
theorem test_pwrZeroRefused :
    (match powerUnder .refuse 0b00 (loaded [0x00, 0x00, 0x00, 0x00, 0x00, 0x00, 0x80, 0x02]) with
      | .refused r => some r | _ => none) = some (.logarithmOfZero "PWR") := by
  decide +kernel
/-- LN -1 of Part 2.8 is no zero: NEG under the value refuse too. -/
theorem test_lnNegUnderRefuse : (match logarithmUnder .refuse "LN" .ln 0b00 (loaded [0x00, 0x00, 0x80, 0x81]) with
    | .next t => t.status | _ => 0xFF) = 0x48 := by decide +kernel

/-! ### The other transactions (Part 1, E1) -/

/-- The fourth push, and the first pop, of E1. -/
theorem test_push : (match step { loaded [0x01, 0x02, 0x03] with pending := [.push 0x04] } with
    | .next t => (t.sp, t.x, t.pending) | _ => (0, [], [])) =
    ((4, [(0, 0x01), (1, 0x02), (2, 0x03), (3, 0x04)], []) : BitVec 4 × Memory × List Transaction) := by decide +kernel
theorem test_pop : (match step { loaded [0x01, 0x02, 0x03, 0x04] with pending := [.pop] } with
    | .next t => (t.sp, t.x, t.returned) | _ => (0, [], [])) =
    ((3, [(0, 0x01), (1, 0x02), (2, 0x03), (3, 0x04)], [0x04]) : BitVec 4 × Memory × List Byte) := by decide +kernel
/-- A write of 0x00 leaves no entry: the canonical form. -/
theorem test_writeZero : (loaded [0x01]).x.write 0 0x00 = [] := by decide

/-! ### The float format library (Part 1, E7) -/

theorem test_ieeeMinusFive : ieeeToCanon ⟨0x00, 0x00, 0xA0, 0xC0⟩ = some ⟨true, 2, 0xA0, 0x0000⟩ := by decide
theorem test_ieeeBack : canonToIeee ⟨true, 2, 0xA0, 0x0000⟩ = some ⟨0x00, 0x00, 0xA0, 0xC0⟩ := by decide
theorem test_amPi : amToCanon ⟨0xDA, 0x0F, 0xC9, 0x02⟩ = ⟨false, 1, 0xC9, 0x0FDA⟩ := by decide
theorem test_amPiBack : canonToAm ⟨false, 1, 0xC9, 0x0FDA⟩ = some ⟨0xDA, 0x0F, 0xC9, 0x02⟩ := by decide

/-! ### Witnesses: the hypotheses of each obligation can be met -/

theorem witness_DecodeOfEncodeIsTheCommand :
    ((Instr.chsF true 0b01).wellFormed = true ∧ (Instr.fixs false 0b11).wellFormed = true) ∧
    (Instr.unknown true 0b01).wellFormed = true ∧ Function.Injective (fun h => opc h + 1) := by
  refine ⟨by decide, by decide, fun a b h => opc_injective ?_⟩
  simpa using h
theorem witness_ReservedBytesAreRefused :
    (Instr.muuReserved false 0b01).reservedName = some "MUU.reserved" ∧
    (opcodeField 0x0C ∈ ([0x0C, 0x0D, 0x0E, 0x0F, 0x16] : List (BitVec 5)) ∧ (classField 0x0C).getLsbD 1 = false) ∧
    (opcodeField 0xB6 ∈ ([0x0C, 0x0D, 0x0E, 0x0F, 0x16] : List (BitVec 5)) ∧ (classField 0xB6).getLsbD 1 = false) := by
  decide
theorem witness_StepRunsTheDecodedCommand :
    (commanded [0x01] 0x6C).pending = .command 0x6C :: [] ∧ decode [0x6C] = .ok (.addS false) ∧
    decodeTableWord 8 0x1A = some (.pupi false 0b00) := by decide
theorem witness_IdleBlockKeepsItsState : (loaded [0x01, 0x02]).pending = [] := by decide
theorem witness_PushStoresAndAdvances :
    ({ loaded [0x01] with pending := [.push 0x00, .pop] } : State).pending = .push 0x00 :: [.pop] := rfl
theorem witness_PopRetreatsAndReturns :
    ({ State.reset with pending := [.pop] } : State).pending = .pop :: [] := rfl
theorem witness_StatusReadChangesNothing :
    Inv { loaded [0x01] with pending := [.status], status := 0x42 } ∧
    ({ loaded [0x01] with pending := [.status], status := 0x42 } : State).pending = .status :: [] :=
  ⟨⟨by decide, by decide, .ovf, by decide⟩, rfl⟩
theorem witness_ResetZeroesTheDevice :
    ({ loaded [0x01] with pending := [.reset], status := 0x42 } : State).pending = .reset :: [] := rfl
theorem witness_NewestBytesPopFirst :
    16 ≤ 16 ∧ 16 ≤ (List.replicate 17 (0x5A : Byte)).length ∧ 0 ≤ ([] : List Byte).length := by decide
theorem witness_EveryTransactionKeepsTheInvariant :
    Inv { loaded [0x01, 0x02] with pending := [.push 0x03], status := 0x18 } ∧
    ∃ t, step { loaded [0x01, 0x02] with pending := [.push 0x03], status := 0x18 } = .next t :=
  ⟨⟨by decide, by decide, .arg, by decide⟩, _, rfl⟩
theorem witness_OnlyAddAndSubSetCarry :
    ∃ t, exec (.addS false) (loaded [0xFF, 0xFF, 0x01, 0x00]) = .next t ∧ statusCarry t.status = true :=
  ⟨_, rfl, by decide⟩
theorem witness_FlagsDescribeTheTopOfStack :
    (∃ t, exec (.nop false 0b00) (loaded [0x01]) = .next t) ∧ (Instr.nop false 0b00).hasNoHandler = true ∧
    (∃ t, exec (.popS false) (loaded [0x01]) = .next t) ∧ (Instr.popS false).hasNoHandler = false :=
  ⟨⟨_, rfl⟩, rfl, ⟨_, rfl⟩, rfl⟩
theorem witness_SilentCommandsRaiseNoCode :
    (Instr.muuD false).neverRaises = true ∧ ∃ t, exec (.muuD false) (loaded [0x01]) = .next t := ⟨rfl, _, rfl⟩
theorem witness_CommandsReachTwelveCells :
    (∃ t, exec (.xchD false) (loaded [0x01]) = .next t) ∧
    ∀ k ∈ ([-8, -7, -6, -5, -4, -3, -2, -1, 0, 1, 2, 3] : List Int), 5 ≠ (loaded [0x01]).idx k :=
  ⟨⟨_, rfl⟩, by decide⟩
theorem witness_DivisionTruncatesTowardZero :
    ((0xFFFF : Word16) ≠ 0 ∧ (0x8000 : Word16) = 0x8000) ∧ (0x0001 : Word16) ≠ 0 ∧ (0xFFFFFFFF : Word32) ≠ 0 := by decide
theorem witness_RecordsSurviveTheRoundTrip :
    ((⟨true, 62, 0x80, 0x0001⟩ : Canon).isNormal = true ∧ (-65 : Int) ≤ 62 ∧ (62 : Int) ≤ 62) ∧
    ((⟨true, -65, 0xFF, 0xFFFF⟩ : Canon).isNormal = true ∧ (-65 : Int) ≤ -65 ∧ (-65 : Int) ≤ 62) ∧
    ((⟨true, 127, 0x80, 0x0001⟩ : Canon).isNormal = true ∧ (-126 : Int) ≤ 127 ∧ (127 : Int) ≤ 127) ∧
    ((⟨true, -128, 0x80, 0x0001⟩ : Canon).isNormal = true ∧ (-128 : Int) ≤ -128 ∧ (-128 : Int) ≤ 126) ∧
    (⟨true, 9, 0x00, 0x0001⟩ : Canon).isNormal = false := by decide
theorem witness_EncodersFailExactlyOutOfRange :
    (⟨false, 62, 0x80, 0⟩ : Canon).isNormal = true ∧ (⟨false, 63, 0xFF, 0⟩ : Canon).isNormal = true ∧
    (⟨false, -66, 0x80, 0⟩ : Canon).isNormal = true ∧ (⟨false, 127, 0x7F, 0⟩ : Canon).isNormal = false := by decide
theorem witness_OneFoldKeepsTheLowSevenBits :
    (⟨false, -193, 0x80, 0⟩ : Canon).isNormal = true ∧ (-192 : Int) ≤ -193 + 1 ∧ (-193 + 1 : Int) ≤ 191 ∧
    (⟨false, 190, 0x80, 0⟩ : Canon).isNormal = true ∧ (-192 : Int) ≤ 190 + 1 ∧ (190 + 1 : Int) ≤ 191 := by decide
theorem witness_NormaliseIsFaithful :
    ((2 : ℚ) ^ (-2 : ℤ) ≤ |(1 / 3 : ℚ)| ∧ |(1 / 3 : ℚ)| < (2 : ℚ) ^ (-2 + 1 : ℤ)) ∧
    ((2 : ℚ) ^ (0 : ℤ) ≤ |(-1 : ℚ)| ∧ |(-1 : ℚ)| < (2 : ℚ) ^ (0 + 1 : ℤ)) ∧
    (-1 : ℚ) = (-8388608 : ℤ) * (2 : ℚ) ^ (0 - 23 : ℤ) := by
  norm_num [abs_of_pos]
theorem witness_OneFoldSufficesForArithmetic : (amToCanon ⟨0x00, 0x00, 0x80, 0x40⟩).val ≠ 0 := by decide +kernel
theorem witness_SmallIntegersConvertExactly : |(-16777215 : ℤ)| < 2 ^ 24 ∧ |(0 : ℤ)| < 2 ^ 24 := by decide
theorem witness_FixingTruncatesAndRangeChecks :
    0 < 16 ∧ canonToInt (amToCanon ⟨0x80, 0x00, 0x80, 0x90⟩) 16 = some (-32768) ∧
    canonToInt (amToCanon ⟨0x00, 0x01, 0x80, 0x90⟩) 16 = none := by decide +kernel
theorem witness_isFloatClass : isFloatClass 0b00 = true ∧ isFloatClass 0b01 = true := by decide
theorem witness_DivCommitsTheQuotient :
    (loaded [0x00, 0x80, 0xFF, 0xFF]).tos16 ≠ 0 ∧ (loaded [0x00, 0x80, 0xFF, 0xFF]).nos16 = 0x8000 ∧
    (loaded [0x00, 0x80, 0xFF, 0xFF]).tos16 = 0xFFFF ∧ (loaded [0xF9, 0xFF, 0x02, 0x00]).tos16 ≠ 0 ∧
    (loaded [0x00, 0x00, 0x00, 0x80, 0xFF, 0xFF, 0xFF, 0xFF]).tos32 = 0xFFFFFFFF ∧
    (loaded [0x01, 0x00, 0x00, 0x00]).tos32 ≠ 0 := by decide +kernel
theorem witness_DivByZeroLeavesTheStack :
    (loaded [0x05, 0x00, 0x00, 0x00]).tos16 = 0 ∧ (loaded [0x01, 0x00, 0x00, 0x00, 0x00, 0x00, 0x00, 0x00]).tos32 = 0 := by
  decide +kernel
theorem witness_FloatDivisionReplacesBothOrDropsZero :
    (loaded [0x00, 0x00, 0x80, 0x40]).tosWire.b2.getLsbD 7 = true ∧
    (loaded [0x01, 0x02, 0x03, 0x84]).tosWire.b2.getLsbD 7 = false := by decide +kernel
theorem witness_DomainChecksRejectInPlace :
    (amToCanon (loaded [0x00, 0x00, 0x80, 0xC0]).tosWire).val < 0 ∧
    1 < |(amToCanon (loaded [0x01, 0x00, 0x80, 0x01]).tosWire).val| ∧
    32 < |(amToCanon (loaded [0x01, 0x00, 0x80, 0x86]).tosWire).val| ∧
    |(amToCanon (loaded [0xFF, 0xFF, 0xFF, 0xF4]).tosWire).val| < 1 / 2 ^ 12 := by decide +kernel
theorem witness_DerivedFunctionsReplaceTheTop :
    0 ≤ (amToCanon (loaded [0x00, 0x00, 0x00, 0x80]).tosWire).val ∧
    1 / 2 ^ 12 ≤ |(amToCanon (loaded [0x00, 0x00, 0x80, 0xF5]).tosWire).val| ∧
    |(amToCanon (loaded [0x00, 0x00, 0x80, 0x81]).tosWire).val| ≤ 1 ∧
    |(amToCanon (loaded [0x00, 0x00, 0x80, 0x86]).tosWire).val| ≤ 32 ∧
    0 < (amToCanon (loaded [0x00, 0x00, 0x80, 0x40]).tosWire).val := by decide +kernel
theorem witness_LogarithmOfZeroIsFree :
    (loaded [0x00, 0x00, 0x00, 0x00]).tosWire.b2.getLsbD 7 = false ∧
    (loaded [0x00, 0x00, 0x00, 0x00, 0x00, 0x00, 0x80, 0x02]).nosWire.b2.getLsbD 7 = false := by decide +kernel
theorem witness_PowerReplacesBothOrRejects :
    (amToCanon (loaded [0x00, 0x00, 0x80, 0x82, 0x00, 0x00, 0x80, 0x02]).nosWire).val < 0 ∧
    0 < (amToCanon (loaded [0x00, 0x00, 0x80, 0x02, 0x00, 0x00, 0xC0, 0x02]).nosWire).val := by decide +kernel

end Sys2Proof.Tests
end

