-- ==== Sys2Proof/Proofs/FlagRule.lean ====
section
/-! SUPPORT. The flag rule `sz` told cell by cell: what ZERO says of the bytes below the pointer under each
class (40_dispatch_and_primitives.md R107). -/

namespace Sys2Proof.Machine
open Sys2Proof

/-- Under I16 the OR of R107 is 0 exactly when both bytes are. -/
theorem State.zeroBelow_i16 (s : State) :
    s.zeroBelow .i16 = decide (s.peek (-1) = 0 ∧ s.peek (-2) = 0) := by
  simp [State.zeroBelow, beq_eq_decide, BitVec.or_eq_zero_iff]

/-- Under I32 the OR of R107 is 0 exactly when all four bytes are. -/
theorem State.zeroBelow_i32 (s : State) :
    s.zeroBelow .i32 =
      decide (s.peek (-1) = 0 ∧ s.peek (-2) = 0 ∧ s.peek (-3) = 0 ∧ s.peek (-4) = 0) := by
  simp [State.zeroBelow, beq_eq_decide, BitVec.or_eq_zero_iff, and_assoc]

/-- Under F32 ZERO is the mantissa's top bit being clear (R107). -/
theorem State.zeroBelow_f32 (s : State) : s.zeroBelow .f32 = !(s.peek (-2)).getLsbD 7 := rfl

/-- Settles O22: `State.sz_eq` gives the frame and SIGN on every state; ZERO is then read class by class. -/
theorem flagRuleReadsBelowThePointer : Obligations.FlagRuleReadsBelowThePointer := by
  unfold Obligations.FlagRuleReadsBelowThePointer
  intro s
  rw [State.sz_eq]
  cases s.cls with
  | i16 => rw [State.zeroBelow_i16]; rfl
  | i32 => rw [State.zeroBelow_i32]; rfl
  | f32 => rw [State.zeroBelow_f32]; rfl

end Sys2Proof.Machine
end

section
/-! SUPPORT. The arithmetic library in the library's own terms, at every width: the sum and carry of `add16c`,
`cm` as negation, `divTrunc` as `BitVec.sdiv` (46_arithmetic_library.md R240, R246, R247, R254, R255). -/

namespace Sys2Proof.Machine
open Sys2Proof

/-! ### Addition -/

theorem add16c_fst (a b : Word16) (cin : Bool) :
    (add16c a b cin).1 = a + b + (BitVec.ofBool cin).zeroExtend 16 := by
  cases cin <;> simp [add16c, BitVec.ofNat_add]

theorem add16c_snd (a b : Word16) (cin : Bool) :
    (add16c a b cin).2 = decide (2 ^ 16 ≤ a.toNat + b.toNat + cin.toNat) := rfl

/-- Settles O24: the case without a carry input is `add16c` at `false`. -/
theorem sixteenBitSumAndCarry : Obligations.SixteenBitSumAndCarry := by
  unfold Obligations.SixteenBitSumAndCarry
  refine ⟨fun a b cin => ⟨add16c_fst a b cin, ?_⟩, fun a b => Prod.ext ?_ ?_⟩
  · rw [add16c_snd, decide_eq_true_iff]
  · exact (add16c_fst a b false).trans (by simp)
  · exact add16c_snd a b false

/-! ### Negation -/

theorem minNeg_eq_intMin (w : Nat) : minNeg w = BitVec.intMin w :=
  BitVec.eq_of_toNat_eq (by rw [minNeg, BitVec.toNat_ofNat, BitVec.toNat_intMin])

theorem cm_eq {w : Nat} (v : BitVec w) : cm v = (-v, decide (v = minNeg w)) :=
  Prod.ext (BitVec.eq_of_toNat_eq (by simp [cm])) (beq_eq_decide v (minNeg w))

theorem cm_minNeg_fst (w : Nat) : (cm (minNeg w)).1 = minNeg w := by
  rw [cm_eq, minNeg_eq_intMin, BitVec.neg_intMin]

/-- Settles O27: `cm_eq` and `cm_minNeg_fst` at the two widths. -/
theorem negationLeavesMostNegative : Obligations.NegationLeavesMostNegative :=
  ⟨fun v => cm_eq v, fun v => cm_eq v, cm_minNeg_fst 16, cm_minNeg_fst 32⟩

/-! ### Division -/

theorem divTrunc_zero {w : Nat} (b : BitVec w) : divTrunc b 0 = none := if_pos rfl

/-- Both reduce the truncated quotient of the signed values mod 2^w. -/
theorem divTrunc_of_ne_zero {w : Nat} (b : BitVec w) {a : BitVec w} (ha : a ≠ 0) :
    divTrunc b a = some (b.sdiv a) := by
  have hq : BitVec.ofInt w (b.toInt.tdiv a.toInt) = b.sdiv a :=
    BitVec.eq_of_toInt_eq (by rw [BitVec.toInt_ofInt, BitVec.toInt_sdiv])
  rw [divTrunc, if_neg ha, hq]

/-- R254's "Sign of the quotient", on integers. -/
theorem tdiv_neg_iff_signs_differ (x y : Int) :
    x.tdiv y < 0 ↔ x.tdiv y ≠ 0 ∧ ¬ (x < 0 ↔ y < 0) := by
  have nonneg_of_same (h : x < 0 ↔ y < 0) : 0 ≤ x.tdiv y := by
    rcases lt_or_ge x 0 with hx | hx
    · exact Int.tdiv_nonneg_of_nonpos_of_nonpos hx.le (h.mp hx).le
    · exact Int.tdiv_nonneg hx (by omega)
  have nonpos_of_differ (h : ¬ (x < 0 ↔ y < 0)) : x.tdiv y ≤ 0 := by
    rcases lt_or_ge x 0 with hx | hx
    · have hneg : 0 ≤ (-x).tdiv y := Int.tdiv_nonneg (by omega) (by omega)
      rw [Int.neg_tdiv] at hneg
      omega
    · exact Int.tdiv_nonpos_of_nonneg_of_nonpos hx (by omega)
  omega

/-- The sign of a representable quotient, read off the patterns. -/
theorem toInt_neg_iff_msb_ne {w : Nat} {b a q : BitVec w} (hq : q.toInt = b.toInt.tdiv a.toInt) :
    q.toInt < 0 ↔ q ≠ 0 ∧ b.msb ≠ a.msb := by
  have hzero : q = 0 ↔ q.toInt = 0 := by rw [← BitVec.toInt_inj]; simp
  have hmsb : b.msb = a.msb ↔ (b.toInt < 0 ↔ a.toInt < 0) := by simp [BitVec.msb_eq_toInt]
  rw [ne_eq, ne_eq, hzero, hmsb, hq]
  exact tdiv_neg_iff_signs_differ b.toInt a.toInt

/-- The quotient of a non-zero divisor at every width (R254, R255): only most negative / -1 is not
representable, and it stays the most negative value. -/
theorem divTrunc_quotient {w : Nat} (b : BitVec w) {a : BitVec w} (ha : a ≠ 0) :
    ∃ q, divTrunc b a = some q ∧
      if b = minNeg w ∧ a = BitVec.allOnes w then q = minNeg w
      else q.toInt = b.toInt.tdiv a.toInt ∧ (q.toInt < 0 ↔ q ≠ 0 ∧ b.msb ≠ a.msb) := by
  refine ⟨b.sdiv a, divTrunc_of_ne_zero b ha, ?_⟩
  rw [minNeg_eq_intMin, ← BitVec.neg_one_eq_allOnes]
  split
  next corner =>
    obtain ⟨rfl, rfl⟩ := corner
    exact BitVec.intMin_sdiv_neg_one
  next notCorner =>
    have hq := BitVec.toInt_sdiv_of_ne_or_ne b a (not_and_or.mp notCorner)
    exact ⟨hq, toInt_neg_iff_msb_ne hq⟩

/-- Settles O30: `divTrunc_zero` and `divTrunc_quotient` at the two widths. -/
theorem divisionTruncatesTowardZero : Obligations.DivisionTruncatesTowardZero :=
  ⟨divTrunc_zero, divTrunc_zero, fun b _ ha => divTrunc_quotient b ha, fun b _ ha => divTrunc_quotient b ha⟩

end Sys2Proof.Machine
end

section
/-! SUPPORT. `raise E` as one write of the ERROR field (60_exceptions.md R300). -/

namespace Sys2Proof.Machine
open Sys2Proof

/-- What `raise` leaves: a status register whose other four fields are those before, all else as before. -/
theorem State.raise_eq (s : State) (e : ErrorCode) :
    s.raise e = { s with status := statusPack (statusBusy s.status) (statusSign s.status)
                           (statusZero s.status) (errCode e) (statusCarry s.status) } := rfl

/-- Settles O23: `State.raise_eq` gives the next state, and each field of its status is read back from the
packed register. -/
theorem raiseWritesTheErrorFieldOnly : Obligations.RaiseWritesTheErrorFieldOnly := by
  unfold Obligations.RaiseWritesTheErrorFieldOnly
  intro s e
  rw [State.raise_eq]
  exact ⟨statusError_pack .., statusBusy_pack .., statusSign_pack .., statusZero_pack .., statusCarry_pack .., rfl⟩

end Sys2Proof.Machine
end

section
/-! SUPPORT. Decoder and encoder as inverses (30_encoding.md): a command is the handler its opcode number
selects, under its CLASS field, and both directions of the round trip follow from that. -/

namespace Sys2Proof
open Machine

/-! ### Routing on the class -/

theorem byClass_float {cls : BitVec 2} (h : isFloatClass cls = true) (s d f : Instr) :
    byClass cls s d f = f := by
  rw [byClass, classMap_float h]

/-! ### The decoder at a handler's number -/

/-- A byte put together from its own fields is the byte (R70). -/
theorem commandByte_fields (c : Byte) : commandByte (srField c) (classField c) (opcodeField c) = c := by
  revert c
  decide

theorem decodeByteUnder_of_handler {table : OpcodeTable} (ht : Function.Injective table) (h : Opcode) (sr : Bool)
    (cls : BitVec 2) : decodeByteUnder table (commandByte sr cls (table h)) = instrOf h sr cls := by
  simp [decodeByteUnder, handlerOf_of_injective ht]

theorem decodeByteUnder_opcUnknown (table : OpcodeTable) (sr : Bool) (cls : BitVec 2) :
    decodeByteUnder table (commandByte sr cls (opcUnknown table)) = .unknown sr cls := by
  simp [decodeByteUnder, handlerOf_opcUnknown]

/-- A command that its row's handler routes to under `cls` is read back from that handler's byte. -/
theorem decodeUnder_of_instrOf {table : OpcodeTable} (ht : Function.Injective table) {h : Opcode} {sr : Bool}
    {cls : BitVec 2} {i : Instr} (hi : instrOf h sr cls = i) :
    decodeUnder table [commandByte sr cls (table h)] = .ok i :=
  congrArg Except.ok ((decodeByteUnder_of_handler ht h sr cls).trans hi)

/-- The round trip under every table, row by row: rows of an ignored class and rows of a fixed integer class
are what their handler routes to by definition, rows of a float class by their well-formedness. -/
theorem decodeUnder_encodeUnder {table : OpcodeTable} (ht : Function.Injective table) {i : Instr}
    (hi : i.wellFormed = true) : decodeUnder table (encodeUnder table i) = .ok i := by
  cases i with
  | unknown sr cls => exact congrArg Except.ok (decodeByteUnder_opcUnknown table sr cls)
  | chsF | ptoF | popF | xchF | addReserved | subReserved | mulReserved | divReserved | muuReserved =>
    exact decodeUnder_of_instrOf ht (byClass_float hi _ _ _)
  | addS | subS | mulS | divS | muuS | chsS | ptoS | popS | xchS
  | addD | subD | mulD | divD | muuD | chsD | ptoD | popD | xchD
  | nop | sqrt | sin | cos | tan | asin | acos | atan | log | ln | exp | pwr
  | fadd | fsub | fmul | fdiv | chsf | pupi | fltd | flts | fixd | fixs =>
    exact decodeUnder_of_instrOf ht rfl

/-- Settles O1: `decodeUnder_encodeUnder` at the decided table, whose numbers differ, and at any other. -/
theorem decodeOfEncodeIsTheCommand : Obligations.DecodeOfEncodeIsTheCommand :=
  ⟨fun _ hi => decodeUnder_encodeUnder opc_injective hi, fun _ _ ht hi => decodeUnder_encodeUnder ht hi⟩

/-! ### The encoder at a decoded command -/

theorem instrOf_wellFormed (h : Opcode) (sr : Bool) (cls : BitVec 2) : (instrOf h sr cls).wellFormed = true := by
  cases h <;> revert sr cls <;> decide

theorem encode_instrOf (h : Opcode) (sr : Bool) (cls : BitVec 2) :
    encode (instrOf h sr cls) = [commandByte sr cls (opc h)] := by
  cases h <;> revert sr cls <;> decide

/-- Every opcode number is a handler's or the one left over (R74, R78). -/
theorem opcode_cases (op : BitVec 5) :
    (∃ h, handlerOf opc op = some h ∧ opc h = op) ∨ (handlerOf opc op = none ∧ opcUnknown opc = op) := by
  cases hf : handlerOf opc op with
  | some h => exact .inl ⟨h, rfl, by simpa using List.find?_some hf⟩
  | none =>
    refine .inr ⟨rfl, ?_⟩
    revert op
    decide

/-- Settles O2: a byte is put together again from its fields, whether a handler owns its number or not. -/
theorem everyByteIsOneWellFormedCommand : Obligations.EveryByteIsOneWellFormedCommand := by
  unfold Obligations.EveryByteIsOneWellFormedCommand
  intro c
  unfold decodeByte decodeByteUnder
  rcases opcode_cases (opcodeField c) with ⟨h, hh, hop⟩ | ⟨hnone, hop⟩
  · simp only [hh]
    exact ⟨instrOf_wellFormed h _ _, by rw [encode_instrOf, hop, commandByte_fields]⟩
  · simp only [hnone]
    exact ⟨rfl, by rw [encode, encodeUnder, hop, commandByte_fields]⟩

/-- Settles O3: the decoder evaluated on the fourteen bytes. -/
theorem writtenOutBytesDecode : Obligations.WrittenOutBytesDecode := by
  unfold Obligations.WrittenOutBytesDecode
  decide

/-! ### SR -/

theorem opcodeField_flip (c : Byte) : opcodeField (c ^^^ 0x80) = opcodeField c := by
  revert c
  decide

theorem classField_flip (c : Byte) : classField (c ^^^ 0x80) = classField c := by
  revert c
  decide

theorem exec_byClass_congr {s d f s' d' f' : Instr} {x : State} (cls : BitVec 2) (hs : exec s x = exec s' x)
    (hd : exec d x = exec d' x) (hf : exec f x = exec f' x) :
    exec (byClass cls s d f) x = exec (byClass cls s' d' f') x := by
  unfold byClass
  cases classMap cls <;> assumption

/-- No handler reads SR (R71). -/
theorem exec_instrOf_sr (h : Opcode) (sr sr' : Bool) (cls : BitVec 2) (s : State) :
    exec (instrOf h sr cls) s = exec (instrOf h sr' cls) s := by
  cases h with
  | add | sub | mul | div | muu | chs | pto | pop | xch => exact exec_byClass_congr cls rfl rfl rfl
  | nop | sqrt | sin | cos | tan | asin | acos | atan | log | ln | exp | pwr
  | fadd | fsub | fmul | fdiv | chsf | pupi | fltd | flts | fixd | fixs => rfl

/-- Settles O4: the flipped byte has the same opcode and CLASS, and the handler does not read SR. -/
theorem serviceRequestBitIsIgnored : Obligations.ServiceRequestBitIsIgnored := by
  unfold Obligations.ServiceRequestBitIsIgnored
  intro c s
  unfold transactCommand decodeByte decodeByteUnder
  rw [opcodeField_flip, classField_flip]
  cases handlerOf opc (opcodeField c) with
  | some h => exact exec_instrOf_sr h _ _ _ s
  | none => rfl

/-! ### The reserved rows -/

theorem exec_of_reservedName {i : Instr} {name : String} (s : State) (h : i.reservedName = some name) :
    exec i s = .refused (.reservedEncoding name) := by
  cases i with
  | addReserved | subReserved | mulReserved | divReserved | muuReserved =>
    cases h
    rfl
  | _ => cases h

/-- Settles O5: each reserved row evaluates to its refusal; which bytes are reserved is a check of the 256. -/
theorem reservedBytesAreRefused : Obligations.ReservedBytesAreRefused := by
  unfold Obligations.ReservedBytesAreRefused
  refine ⟨fun i name s h => exec_of_reservedName s h, ?_⟩
  decide

end Sys2Proof
end

section
/-! SUPPORT. One step for each host transaction (40_dispatch_and_primitives.md R103 to R114), and the stack
seen from the host: after any pushes the newest bytes come back first (R104, R105). -/

namespace Sys2Proof
open Machine

/-! ### A step is the transaction at the head of the stream -/

theorem step_of_pending_cons {s : State} {x : Transaction} {rest : List Transaction} (h : s.pending = x :: rest) :
    step s = transact x { s with pending := rest } := by
  simp [step, nextTransaction, h]

/-- Settles O7. -/
theorem idleBlockKeepsItsState : Obligations.IdleBlockKeepsItsState := by
  unfold Obligations.IdleBlockKeepsItsState
  intro s h
  simp [step, nextTransaction, h]

theorem decode_singleton_eq_ok {c : Byte} {i : Instr} : decode [c] = .ok i ↔ decodeByte c = i :=
  iff_of_eq (Except.ok.injEq _ _)

/-- A table word of 8 bits is read as the command byte it holds. -/
theorem decodeTableWord_byte (w : Nat) : decodeTableWord 8 w = some (decodeByte (commandOfWord 8 w)) := rfl

/-- Settles O6: both a byte and a table word reach `exec` through the command transaction. -/
theorem stepRunsTheDecodedCommand : Obligations.StepRunsTheDecodedCommand := by
  unfold Obligations.StepRunsTheDecodedCommand
  refine ⟨fun s c rest i hs hi => ?_, fun s w i hi => ?_⟩
  · rw [step_of_pending_cons hs, ← decode_singleton_eq_ok.mp hi]
    rfl
  · rw [decodeTableWord_byte, Option.some.injEq] at hi
    rw [step_of_pending_cons (rest := s.pending) rfl, ← hi]
    rfl

/-! ### The other transactions -/

theorem idx_zero (s : State) : s.idx 0 = s.sp.toNat := by simp [State.idx]

/-- Settles O8: a push is a poke at the pointer and a move by one. -/
theorem pushStoresAndAdvances : Obligations.PushStoresAndAdvances := by
  unfold Obligations.PushStoresAndAdvances
  intro s b rest h
  refine ⟨_, step_of_pending_cons h, ?_, rfl, fun a ha => ?_, rfl, rfl, rfl, rfl, rfl⟩
  · rw [← idx_zero]
    exact Memory.read_write_self _ _ _
  · rw [← idx_zero] at ha
    exact Memory.read_write_ne _ _ ha

/-- Settles O9: `State.popByte_eq` names the byte handed over and the pointer left. -/
theorem popRetreatsAndReturns : Obligations.PopRetreatsAndReturns := by
  unfold Obligations.PopRetreatsAndReturns
  intro s rest h
  have hsp : s.sp + BitVec.ofInt 4 (-1) = s.sp - 1 := (BitVec.sub_eq_add_neg s.sp 1).symm
  rw [step_of_pending_cons h, ← hsp, transact, transactPop, State.popByte_eq]
  rfl

/-- Settles O10: BUSY is the invariant's. -/
theorem statusReadChangesNothing : Obligations.StatusReadChangesNothing := by
  unfold Obligations.StatusReadChangesNothing
  intro s rest ⟨_, hbusy, _⟩ h
  exact ⟨step_of_pending_cons h, hbusy⟩

/-- Settles O11. -/
theorem resetZeroesTheDevice : Obligations.ResetZeroesTheDevice := by
  unfold Obligations.ResetZeroesTheDevice
  intro s rest h
  exact ⟨_, step_of_pending_cons h, fun _ => rfl, rfl, rfl, rfl, rfl, rfl, rfl⟩

/-- Settles O12. -/
theorem resetStateIsAllZero : Obligations.ResetStateIsAllZero :=
  ⟨fun _ => rfl, rfl, rfl, rfl, rfl⟩

/-! ### Many pushes and pops -/

/-- Pops read the cells below the pointer, nearest first, and move the pointer only (R105). -/
theorem popMany_eq (n : Nat) (s : State) :
    popMany n s = ((List.range n).map (fun i : Nat => s.peek (-((i : Int) + 1))), s.moveSp (-n)) := by
  induction n generalizing s with
  | zero => simp [popMany, State.moveSp]
  | succ n ih =>
    have hoff (i : Nat) : -1 + -((i : Int) + 1) = -(((i + 1 : Nat) : Int) + 1) := by omega
    have hmove : -1 + -(n : Int) = -((n + 1 : Nat) : Int) := by omega
    simp only [popMany, State.popByte_eq, ih, State.peek_moveSp, State.moveSp_moveSp, hoff, hmove,
      List.range_succ_eq_map, List.map_cons, List.map_map]
    rfl

theorem pushAll_concat (s : State) (bs : List Byte) (b : Byte) :
    pushAll s (bs ++ [b]) = (pushAll s bs).pushByte b := by
  simp [pushAll]

theorem pushAll_status (s : State) (bs : List Byte) : (pushAll s bs).status = s.status := by
  induction bs using List.reverseRecOn with
  | nil => rfl
  | append_singleton bs b ih => rw [pushAll_concat, State.pushByte_status, ih]

theorem pushAll_sp (s : State) (bs : List Byte) : (pushAll s bs).sp = s.sp + BitVec.ofInt 4 bs.length := by
  induction bs using List.reverseRecOn with
  | nil => simp [pushAll]
  | append_singleton bs b ih =>
    rw [pushAll_concat, State.pushByte_sp, ih, BitVec.add_assoc, ← BitVec.ofInt_add, List.length_append]
    rfl

/-- Of the offsets 0 down to -15 only 0 names the cell at the pointer. -/
theorem ofInt4_neg_eq_zero_iff {i : Nat} (hi : i < 16) : BitVec.ofInt 4 (-i) = BitVec.ofInt 4 0 ↔ i = 0 := by
  interval_cases i <;> decide

/-- The last sixteen bytes pushed lie below the pointer, the newest nearest (R104). -/
theorem peek_pushAll (s : State) (bs : List Byte) (i : Nat) (hi : i < 16) (hlen : i < bs.length) :
    (pushAll s bs).peek (-((i : Int) + 1)) = bs.reverse[i]'(by simpa using hlen) := by
  induction bs using List.reverseRecOn generalizing i with
  | nil => simp at hlen
  | append_singleton bs b ih =>
    have hoff : 1 + -((i : Int) + 1) = -(i : Int) := by ring
    rw [pushAll_concat, State.pushByte_eq, State.peek_moveSp, hoff, State.peek_poke]
    simp only [ofInt4_neg_eq_zero_iff hi]
    cases i with
    | zero => simp
    | succ i => simpa using ih i (by omega) (by simpa using hlen)

/-- Settles O13: `popMany_eq` reads the cells below the pointer, `peek_pushAll` says what lies there. -/
theorem newestBytesPopFirst : Obligations.NewestBytesPopFirst := by
  unfold Obligations.NewestBytesPopFirst
  intro s bs n hn hlen
  rw [popMany_eq]
  refine ⟨?_, pushAll_status s bs, ?_⟩
  · refine List.ext_getElem (by simpa using hlen) fun i hi _ => ?_
    have hin : i < n := by simpa using hi
    simpa using peek_pushAll s bs i (by omega) (by omega)
  · rw [State.moveSp_sp, pushAll_sp, BitVec.add_assoc, ← BitVec.ofInt_add]
    rfl

end Sys2Proof
end

section
/-! SUPPORT. What every command leaves, said once: the cells it can write, BUSY, ERROR, CARRY and the flags of
the finished status. The invariant and the statements about all commands follow from `exec_completes`
(10_state.md R25, R34; 40_dispatch_and_primitives.md R101, R107, R109; 60_exceptions.md R301). -/

namespace Sys2Proof
open Machine

/-! ### The cells -/

/-- The offsets from the pointer at which a command may write. -/
def commandCells : List Int := [-8, -7, -6, -5, -4, -3, -2, -1, 0, 1, 2, 3]

/-- `u` comes from `s` by writes at the offsets of `commandCells` from the pointer of `s`; the host's fields
stay. -/
structure Touches (s u : State) : Prop where
  wf : Memory.wf s.x → Memory.wf u.x
  cells : ∀ a : Nat, (∀ k ∈ commandCells, a ≠ s.idx k) → u.x.read a = s.x.read a
  pending : u.pending = s.pending
  returned : u.returned = s.returned

/-- A handler as it starts, whatever its latch and its draws: cells, pointer and the host's fields as before
the command, status 0x80 (R100). -/
structure Opened (s u : State) : Prop where
  x : u.x = s.x
  sp : u.sp = s.sp
  status : u.status = 0x80
  pending : u.pending = s.pending
  returned : u.returned = s.returned

theorem opened_prologue (s : State) (c : OpClass) : Opened s (s.prologue c) := ⟨rfl, rfl, rfl, rfl, rfl⟩

theorem Opened.latch {s u : State} (h : Opened s u) (c : OpClass) : Opened s (u.latch c) :=
  ⟨h.x, h.sp, h.status, h.pending, h.returned⟩

theorem Opened.draw {s u : State} (h : Opened s u) {α : Type} (free : Nat → α) : Opened s (u.draw free).2 :=
  ⟨h.x, h.sp, h.status, h.pending, h.returned⟩

theorem Opened.touches {s u : State} (h : Opened s u) : Touches s u :=
  ⟨fun hs => h.x ▸ hs, fun _ _ => by rw [h.x], h.pending, h.returned⟩

theorem Touches.poke {s u : State} (h : Touches s u) (hsp : u.sp = s.sp) {k : Int} (hk : k ∈ commandCells)
    (v : Byte) : Touches s (u.poke k v) := by
  have hidx : u.idx k = s.idx k := by rw [State.idx, State.idx, hsp]
  exact ⟨fun hs => State.wf_poke (h.wf hs) k v,
    fun a ha => (State.read_poke_ne u k v (hidx ▸ ha k hk)).trans (h.cells a ha), h.pending, h.returned⟩

/-- Only the cells and the host's fields count. -/
theorem Touches.of_cells {s u v : State} (h : Touches s u) (hx : v.x = u.x) (hp : v.pending = u.pending)
    (hr : v.returned = u.returned) : Touches s v :=
  ⟨fun hs => hx ▸ h.wf hs, fun a ha => hx ▸ h.cells a ha, hp.trans h.pending, hr.trans h.returned⟩

theorem Touches.moveSp {s u : State} (h : Touches s u) (d : Int) : Touches s (u.moveSp d) :=
  h.of_cells rfl rfl rfl

/-- Two bytes written at adjacent offsets. -/
theorem Opened.poke2 {s u : State} (h : Opened s u) {j k : Int} (hj : j ∈ commandCells) (hk : k ∈ commandCells)
    (a b : Byte) : Touches s ((u.poke j a).poke k b) :=
  (h.touches.poke h.sp hj a).poke h.sp hk b

/-- Four bytes written. -/
theorem Opened.poke4 {s u : State} (h : Opened s u) {j k l m : Int} (hj : j ∈ commandCells)
    (hk : k ∈ commandCells) (hl : l ∈ commandCells) (hm : m ∈ commandCells) (a b c d : Byte) :
    Touches s ((((u.poke j a).poke k b).poke l c).poke m d) :=
  ((h.poke2 hj hk a b).poke h.sp hl c).poke h.sp hm d

theorem Opened.commit16 {s u : State} (h : Opened s u) (r : Word16) : Touches s (u.commit16 r) := by
  rw [State.commit16_eq]
  exact (h.poke2 (by decide) (by decide) _ _).moveSp _

theorem Opened.commit32 {s u : State} (h : Opened s u) (r : Word32) : Touches s (u.commit32 r) := by
  rw [State.commit32_eq]
  exact (h.poke4 (by decide) (by decide) (by decide) (by decide) _ _ _ _).moveSp _

theorem Opened.setTos16 {s u : State} (h : Opened s u) (v : Word16) : Touches s (u.setTos16 v) :=
  h.poke2 (by decide) (by decide) _ _

theorem Opened.setTosWire {s u : State} (h : Opened s u) (w : Wire) : Touches s (u.setTosWire w) :=
  h.poke4 (by decide) (by decide) (by decide) (by decide) _ _ _ _

theorem Opened.setTosWire_moved {s u : State} (h : Opened s u) (w : Wire) :
    Touches s ((u.moveSp (-4)).setTosWire w) := by
  rw [State.setTosWire_moved]
  exact (h.poke4 (by decide) (by decide) (by decide) (by decide) _ _ _ _).moveSp _

theorem Opened.push16 {s u : State} (h : Opened s u) (v : Word16) : Touches s (u.push16 v) := by
  rw [State.push16_eq]
  exact (h.poke2 (by decide) (by decide) _ _).moveSp _

theorem Opened.pushWire {s u : State} (h : Opened s u) (w : Wire) : Touches s (u.pushWire w) := by
  rw [State.pushWire_eq]
  exact (h.poke4 (by decide) (by decide) (by decide) (by decide) _ _ _ _).moveSp _

/-- An operand popped and two bytes pushed in its place (R152). -/
theorem Opened.push16_popped {s u : State} (h : Opened s u) (v : Word16) :
    Touches s ((u.moveSp (-4)).push16 v) := by
  simp only [State.push16_eq, State.poke_moveSp]
  exact ((h.poke2 (by decide) (by decide) _ _).moveSp _).moveSp _

/-- An operand of `d` bytes popped and four bytes pushed in its place (R150, R151, R153). -/
theorem Opened.pushWire_popped {s u : State} (h : Opened s u) {d : Int} (hd : d = -2 ∨ d = -4) (w : Wire) :
    Touches s ((u.moveSp d).pushWire w) := by
  simp only [State.pushWire_eq, State.poke_moveSp]
  rcases hd with rfl | rfl <;>
    exact ((h.poke4 (by decide) (by decide) (by decide) (by decide) _ _ _ _).moveSp _).moveSp _

theorem Opened.pushRecord_popped {s u : State} (h : Opened s u) {d : Int} (hd : d = -2 ∨ d = -4) (c : Canon) :
    Touches s ((u.moveSp d).pushRecord c) := by
  unfold State.pushRecord
  split
  · exact h.pushWire_popped hd _
  · exact h.touches.moveSp _

theorem Opened.flipFloatSign {s u : State} (h : Opened s u) : Touches s u.flipFloatSign := by
  unfold State.flipFloatSign
  split
  · exact h.touches.poke h.sp (by decide) _
  · exact h.touches

theorem Touches.swapCells {s u : State} (h : Touches s u) (hsp : u.sp = s.sp) {i j : Int}
    (hi : i ∈ commandCells) (hj : j ∈ commandCells) : Touches s (u.swapCells i j) :=
  (h.poke hsp hi _).poke hsp hj _

theorem Opened.exchange4 {s u : State} (h : Opened s u) : Touches s u.exchange4 := by
  have h4 := h.touches.swapCells h.sp (i := -4) (j := -8) (by decide) (by decide)
  have h3 := h4.swapCells h.sp (i := -3) (j := -7) (by decide) (by decide)
  have h2 := h3.swapCells h.sp (i := -2) (j := -6) (by decide) (by decide)
  exact h2.swapCells h.sp (i := -1) (j := -5) (by decide) (by decide)

/-! ### The status -/

/-- What a handler has done when it comes to `sz`: cells and host's fields within reach, ERROR a code, NONE
for the commands that never raise one, and CARRY 0 but for ADD and SUB. -/
structure Handled (i : Instr) (s u : State) : Prop where
  touches : Touches s u
  code : ∃ e, statusError u.status = errCode e ∧ (i.neverRaises = true → e = .none)
  carry : statusCarry u.status = true → i.writesCarry = true

/-- A handler that has not written the status yet. -/
theorem Touches.handled {s u : State} (h : Touches s u) (hu : u.status = 0x80) (i : Instr) : Handled i s u :=
  ⟨h, ⟨.none, by simp [hu]⟩, by simp [hu]⟩

theorem Handled.raise {i : Instr} {s u : State} (h : Handled i s u) (hi : i.neverRaises = false) (e : ErrorCode) :
    Handled i s (u.raise e) :=
  ⟨h.touches.of_cells rfl rfl rfl, ⟨e, by simp, by simp [hi]⟩,
    by simpa using h.carry⟩

theorem Handled.raiseIf {i : Instr} {s u : State} (h : Handled i s u) (hi : i.neverRaises = false) (b : Bool)
    (e : ErrorCode) : Handled i s (u.raiseIf b e) := by
  cases b
  · exact h
  · exact h.raise hi e

theorem Handled.latch {i : Instr} {s u : State} (h : Handled i s u) (c : OpClass) : Handled i s (u.latch c) :=
  ⟨h.touches.of_cells rfl rfl rfl, h.code, h.carry⟩

theorem Handled.setCarry {i : Instr} {s u : State} (h : Handled i s u) (hi : i.writesCarry = true) (c : Bool) :
    Handled i s (u.setCarry c) :=
  ⟨h.touches.of_cells rfl rfl rfl, by simpa using h.code, fun _ => hi⟩

/-- What a finished command leaves. -/
structure Completes (i : Instr) (s t : State) : Prop where
  touches : Touches s t
  busy : statusBusy t.status = false
  code : ∃ e, statusError t.status = errCode e ∧ (i.neverRaises = true → e = .none)
  carry : statusCarry t.status = true → i.writesCarry = true
  flags : if i.hasNoHandler then t.status = 0x00
    else statusSign t.status = (t.peek (-1)).getLsbD 7 ∧ statusZero t.status = t.zeroBelow t.cls

/-- `sz` and the epilogue end every handler (R101, R109). -/
theorem Handled.finish {i : Instr} {s u : State} (h : Handled i s u) (hi : i.hasNoHandler = false) :
    Completes i s u.sz.epilogue := by
  refine ⟨h.touches.of_cells rfl rfl rfl, by simp, by simpa using h.code,
    by simpa using h.carry, ?_⟩
  rw [if_neg (by simp [hi])]
  exact ⟨by simp, by simp [State.zeroBelow]⟩

/-- The commands without a handler (R110, R111). -/
theorem Opened.completes {i : Instr} {s u : State} (h : Opened s u) (hi : i.hasNoHandler = true) :
    Completes i s u.epilogue := by
  refine ⟨h.touches.of_cells rfl rfl rfl, by simp,
    ⟨.none, by simp [h.status]⟩, by simp [h.status], ?_⟩
  rw [if_pos hi, State.epilogue_status, h.status]
  decide

/-! ### The shared float steps -/

section
variable {i : Instr} {s u : State}

theorem Touches.raiseAndSz (h : Touches s u) (hu : u.status = 0x80) (hi : i.neverRaises = false)
    (hh : i.hasNoHandler = false) (e : ErrorCode) : Completes i s (u.raiseAndSz e).epilogue :=
  ((h.handled hu i).raiseIf hi _ e).finish hh

theorem Opened.fcommit1 (h : Opened s u) (hi : i.neverRaises = false) (hh : i.hasNoHandler = false) (c : Canon) :
    Completes i s (u.fcommit1 c).epilogue := by
  rcases hc : encodeResult c with ⟨_ | w, e⟩
  · rw [State.fcommit1_none hc]
    have hd := h.draw Config.beyondFold
    exact (hd.setTosWire _).raiseAndSz ((State.setTosWire_status _ _).trans hd.status) hi hh e
  · rw [State.fcommit1_some hc]
    exact (h.setTosWire w).raiseAndSz ((State.setTosWire_status _ _).trans h.status) hi hh e

theorem Opened.openCommit2 (h : Opened s u) (hi : i.neverRaises = false) (hh : i.hasNoHandler = false)
    (o : OpenOutcome) (e : ErrorCode) : Completes i s (u.openCommit2 o e).epilogue := by
  rcases State.openCommit2_cases u o e with ⟨_, ho⟩ | ⟨_, ho⟩
  · rw [ho]
    exact (h.setTosWire_moved _).raiseAndSz ((State.setTosWire_status _ _).trans h.status) hi hh e
  · rw [ho]
    exact h.touches.raiseAndSz h.status hi hh e

theorem Opened.fcommit2 (h : Opened s u) (hi : i.neverRaises = false) (hh : i.hasNoHandler = false) (c : Canon) :
    Completes i s (u.fcommit2 c).epilogue := by
  rcases hc : encodeResult c with ⟨_ | w, e⟩
  · rw [State.fcommit2_none hc]
    exact (h.draw Config.beyondFold).openCommit2 hi hh _ e
  · rw [State.fcommit2_some hc]
    exact (h.setTosWire_moved w).raiseAndSz ((State.setTosWire_status _ _).trans h.status) hi hh e

theorem Opened.reject (h : Opened s u) (hi : i.neverRaises = false) (hh : i.hasNoHandler = false)
    (e : ErrorCode) : Completes i s (u.reject e).epilogue :=
  ((h.touches.handled h.status i).raise hi e).finish hh

theorem Opened.derived (h : Opened s u) (hi : i.neverRaises = false) (hh : i.hasNoHandler = false) (f : Fn1)
    (rejects : Rat → Bool) (e : ErrorCode) : Completes i s (u.derived f rejects e).epilogue := by
  unfold State.derived
  dsimp only
  split
  · exact (h.latch .f32).reject hi hh e
  · exact (h.latch .f32).fcommit1 hi hh _

theorem Opened.logarithm (h : Opened s u) (hi : i.neverRaises = false) (hh : i.hasNoHandler = false) (f : Fn1) :
    Completes i s (u.logarithm f).epilogue := by
  unfold State.logarithm
  dsimp only
  have hl := h.latch .f32
  split
  · exact hl.reject hi hh .neg
  · split
    · have hd := hl.draw Config.logZero
      exact (hd.setTosWire _).raiseAndSz ((State.setTosWire_status _ _).trans hd.status) hi hh _
    · exact hl.fcommit1 hi hh _

theorem Opened.power (h : Opened s u) (hi : i.neverRaises = false) (hh : i.hasNoHandler = false) :
    Completes i s u.power.epilogue := by
  unfold State.power
  have hl := h.latch .f32
  dsimp only [State.floatOperands_eq]
  split
  · exact hl.reject hi hh .neg
  · split
    · exact (hl.draw Config.logZero).openCommit2 hi hh _ _
    · split
      · exact hl.reject hi hh .arg
      · exact hl.fcommit2 hi hh _

/-! ### DIV -/

theorem Handled.drawDivOvf (h : Handled i s u) (hi : i.neverRaises = false) (corner : Bool) :
    Handled i s (u.drawDivOvf corner) := by
  cases corner
  · exact h
  · exact Handled.raiseIf (u := (u.draw Config.divMinNegOvf).2)
      ⟨h.touches.of_cells rfl rfl rfl, h.code, h.carry⟩ hi _ _

end

/-! ### Every command -/

/-- A command's next state, from its handler. -/
theorem completes_of_runCommand {i : Instr} {s t : State} {c : OpClass} {handler : State → State}
    (h : runCommand c handler s = .next t) (hc : Completes i s (handler (s.prologue c)).epilogue) :
    Completes i s t :=
  Host.Outcome.next.inj h ▸ hc

/-- What a command that answers a next state leaves, row by row. -/
theorem exec_completes {i : Instr} {s t : State} (h : exec i s = .next t) : Completes i s t := by
  have hp := opened_prologue s
  have hl (c : OpClass) := (hp c).latch .f32
  unfold exec at h
  cases i with
  | nop | unknown => exact completes_of_runCommand h ((hp _).completes rfl)
  | addReserved | subReserved | mulReserved | divReserved | muuReserved => cases h
  | sqrt | sin | cos | asin | acos | atan | exp =>
    exact completes_of_runCommand h ((hp _).derived rfl rfl _ _ _)
  | log =>
    exact completes_of_runCommand (handler := fun s => s.logarithm .log) h ((hp _).logarithm rfl rfl _)
  | ln =>
    exact completes_of_runCommand (handler := fun s => s.logarithm .ln) h ((hp _).logarithm rfl rfl _)
  | pwr => exact completes_of_runCommand h ((hp _).power rfl rfl)
  | tan sr cls =>
    refine completes_of_runCommand h ?_
    dsimp only
    split
    · exact ((hl _).touches.handled rfl _).finish rfl
    · exact (hl _).fcommit1 rfl rfl _
  | fadd | fsub | fmul => exact completes_of_runCommand h ((hl _).fcommit2 rfl rfl _)
  | fdiv =>
    refine completes_of_runCommand h ?_
    dsimp only [State.floatOperands_eq]
    split
    · exact ((((hl _).touches.moveSp (-4)).handled rfl _).raise rfl .div0).finish rfl
    · exact (hl _).fcommit2 rfl rfl _
  | addS | subS =>
    exact completes_of_runCommand h
      (((((hp _).commit16 _).handled rfl _).setCarry rfl _ |>.raiseIf rfl _ _).finish rfl)
  | addD | subD =>
    exact completes_of_runCommand h
      (((((hp _).commit32 _).handled rfl _).setCarry rfl _ |>.raiseIf rfl _ _).finish rfl)
  | mulS => exact completes_of_runCommand h ((((hp _).commit16 _).handled rfl _ |>.raiseIf rfl _ _).finish rfl)
  | mulD => exact completes_of_runCommand h ((((hp _).commit32 _).handled rfl _ |>.raiseIf rfl _ _).finish rfl)
  | muuS => exact completes_of_runCommand h ((((hp _).commit16 _).handled rfl _).finish rfl)
  | muuD => exact completes_of_runCommand h ((((hp _).commit32 _).handled rfl _).finish rfl)
  | divS =>
    refine completes_of_runCommand h ?_
    dsimp only [State.intOperands16_prologue]
    split
    · exact (((hp _).touches.handled rfl _).raise rfl .div0).finish rfl
    · exact ((((hp _).commit16 _).handled rfl _).drawDivOvf rfl _).finish rfl
  | divD =>
    refine completes_of_runCommand h ?_
    unfold State.divHandler32
    dsimp only [State.intOperands32_prologue]
    split
    · exact (((hp _).touches.handled rfl _).raise rfl .div0).finish rfl
    · exact ((((hp _).commit32 _).handled rfl _).drawDivOvf rfl _).finish rfl
  | chsS =>
    refine completes_of_runCommand h ?_
    dsimp only
    split
    · exact (((hp _).touches.handled rfl _).raise rfl .ovf).finish rfl
    · exact (((hp _).setTos16 _).handled rfl _).finish rfl
  | chsD =>
    refine completes_of_runCommand h ?_
    dsimp only
    split
    · exact (((hp _).touches.handled rfl _).raise rfl .ovf).finish rfl
    · exact (((hp _).setTosWire _).handled rfl _).finish rfl
  | chsF =>
    exact completes_of_runCommand h ((((hp _).flipFloatSign).handled (State.flipFloatSign_status _) _).finish rfl)
  | chsf =>
    exact completes_of_runCommand h ((((hl _).flipFloatSign).handled (State.flipFloatSign_status _) _).finish rfl)
  | ptoS => exact completes_of_runCommand h ((((hp _).push16 _).handled rfl _).finish rfl)
  | ptoD | ptoF => exact completes_of_runCommand h ((((hp _).pushWire _).handled rfl _).finish rfl)
  | popS | popD | popF => exact completes_of_runCommand h ((((hp _).touches.moveSp _).handled rfl _).finish rfl)
  | xchS =>
    have hs := ((hp .i16).touches.swapCells rfl (i := -2) (j := -4) (by decide) (by decide)).swapCells rfl
      (i := -1) (j := -3) (by decide) (by decide)
    exact completes_of_runCommand h ((hs.handled rfl _).finish rfl)
  | xchD | xchF => exact completes_of_runCommand h (((hp _).exchange4.handled rfl _).finish rfl)
  | pupi => exact completes_of_runCommand h (((((hp _).pushWire _).handled rfl _).latch _).finish rfl)
  | flts =>
    exact completes_of_runCommand h
      (((((hp _).pushRecord_popped (.inl rfl) _).handled (State.pushRecord_status _ _) _).latch _).finish rfl)
  | fltd =>
    exact completes_of_runCommand h
      (((((hp _).pushRecord_popped (.inr rfl) _).handled (State.pushRecord_status _ _) _).latch _).finish rfl)
  | fixs =>
    refine completes_of_runCommand h ?_
    dsimp only
    split
    · exact (((hl _).touches.handled rfl _).raise rfl .ovf).finish rfl
    · exact ((((hl _).push16_popped _).handled rfl _).latch _).finish rfl
  | fixd =>
    refine completes_of_runCommand h ?_
    dsimp only
    split
    · exact (((hl _).touches.handled rfl _).raise rfl .ovf).finish rfl
    · exact ((((hl _).pushWire_popped (.inr rfl) _).handled rfl _).latch _).finish rfl

/-! ### The statements about every command -/

/-- Settles O17. -/
theorem onlyAddAndSubSetCarry : Obligations.OnlyAddAndSubSetCarry := by
  unfold Obligations.OnlyAddAndSubSetCarry
  exact fun i s t h => (exec_completes h).carry

/-- Settles O18. -/
theorem flagsDescribeTheTopOfStack : Obligations.FlagsDescribeTheTopOfStack := by
  unfold Obligations.FlagsDescribeTheTopOfStack
  exact fun i s t h => (exec_completes h).flags

/-- Settles O20: the code of a command that never raises one is NONE. -/
theorem silentCommandsRaiseNoCode : Obligations.SilentCommandsRaiseNoCode := by
  unfold Obligations.SilentCommandsRaiseNoCode
  intro i s t hi h
  obtain ⟨e, he, hnone⟩ := (exec_completes h).code
  rw [he, hnone hi]

/-- Settles O21. -/
theorem commandsReachTwelveCells : Obligations.CommandsReachTwelveCells := by
  unfold Obligations.CommandsReachTwelveCells
  intro i s t h
  obtain ⟨_, hcells, hpending, hreturned⟩ := (exec_completes h).touches
  exact ⟨hcells, hpending, hreturned⟩

/-! ### Completion -/

/-- A command is refused under its reserved name, or it completes on every state (R79, R103). -/
theorem exec_total (i : Instr) (s : State) :
    (∃ t, exec i s = .next t) ∨
      ∃ name, i.reservedName = some name ∧ exec i s = .refused (.reservedEncoding name) := by
  cases i with
  | addReserved | subReserved | mulReserved | divReserved | muuReserved => exact .inr ⟨_, rfl, rfl⟩
  | _ => exact .inl ⟨_, rfl⟩

/-- Settles O16: of the transactions only a command can stop, and `exec_total` says which. -/
theorem onlyReservedCommandsStop : Obligations.OnlyReservedCommandsStop := by
  unfold Obligations.OnlyReservedCommandsStop
  intro s
  cases hs : s.pending with
  | nil => exact .inl ⟨s, idleBlockKeepsItsState s hs⟩
  | cons x rest =>
    rw [step_of_pending_cons hs]
    cases x with
    | push | pop | status | reset => exact .inl ⟨_, rfl⟩
    | command c =>
      rcases exec_total (decodeByte c) { s with pending := rest } with hnext | ⟨name, hname, hrefused⟩
      · exact .inl hnext
      · exact .inr ⟨c, rest, name, rfl, hname, hrefused⟩

/-- Settles O19: the prologue overwrites status and latch before a handler reads anything. -/
theorem earlierStatusNeverMatters : Obligations.EarlierStatusNeverMatters := by
  unfold Obligations.EarlierStatusNeverMatters
  intro i s v c
  cases i <;> rfl

/-! ### The invariant -/

/-- Settles O14. -/
theorem resetMeetsTheInvariant : Obligations.ResetMeetsTheInvariant :=
  ⟨Memory.wf_nil, by decide, .none, by decide⟩

theorem exec_inv {i : Instr} {s t : State} (hs : Memory.wf s.x) (h : exec i s = .next t) : Inv t := by
  obtain ⟨htouches, hbusy, ⟨e, he, _⟩, _, _⟩ := exec_completes h
  exact ⟨htouches.wf hs, hbusy, e, he⟩

theorem transact_inv {x : Transaction} {s t : State} (hs : Inv s) (h : transact x s = .next t) : Inv t := by
  obtain ⟨hwf, hbusy, hcode⟩ := hs
  cases x with
  | push b => cases h; exact ⟨State.wf_poke hwf 0 b, hbusy, hcode⟩
  | pop | status => cases h; exact ⟨hwf, hbusy, hcode⟩
  | command c => exact exec_inv hwf h
  | reset => cases h; exact resetMeetsTheInvariant

/-- Settles O15: an idle step keeps the state, and each transaction keeps the invariant; a command does so
from the canonical form of the cells alone. -/
theorem everyTransactionKeepsTheInvariant : Obligations.EveryTransactionKeepsTheInvariant := by
  unfold Obligations.EveryTransactionKeepsTheInvariant
  intro s t hs h
  cases hp : s.pending with
  | nil =>
    rw [idleBlockKeepsItsState s hp] at h
    cases h
    exact hs
  | cons x rest =>
    rw [step_of_pending_cons hp] at h
    exact transact_inv (s := { s with pending := rest }) hs h

end Sys2Proof
end

section
/-! SUPPORT. The arithmetic library's compositions: 32-bit sums of halves, products of partial products, the
signed product from magnitudes, and the overflow rules on sign bits (46_arithmetic_library.md R241 to R245,
R248 to R253). -/

namespace Sys2Proof.Machine
open Sys2Proof

/-! ### Halves as numbers -/

theorem toNat_append_add {m n : Nat} (h : BitVec m) (l : BitVec n) :
    (h ++ l).toNat = h.toNat * 2 ^ n + l.toNat := by
  rw [BitVec.toNat_append, ← Nat.shiftLeft_add_eq_or_of_lt l.isLt, Nat.shiftLeft_eq]

theorem toNat_extract {w : Nat} (v : BitVec w) (a n : Nat) :
    (v.extractLsb' a n).toNat = v.toNat / 2 ^ a % 2 ^ n := by
  rw [BitVec.extractLsb'_toNat, Nat.shiftRight_eq_div_pow]

theorem lo16_toNat (v : Word32) : (lo16 v).toNat = v.toNat % 2 ^ 16 := by simp [lo16]

theorem hi16_toNat (v : Word32) : (hi16 v).toNat = v.toNat / 2 ^ 16 := by
  rw [hi16, toNat_extract]
  omega

theorem toNat_lowHalf {w : Nat} (m : BitVec (w + w)) : (m.extractLsb' 0 w).toNat = m.toNat % 2 ^ w := by
  rw [toNat_extract, pow_zero, Nat.div_one]

theorem toNat_highHalf {w : Nat} (m : BitVec (w + w)) : (m.extractLsb' w w).toNat = m.toNat / 2 ^ w := by
  rw [toNat_extract]
  exact Nat.mod_eq_of_lt (Nat.div_lt_of_lt_mul (by rw [← pow_add]; exact m.isLt))

/-- The upper half of a double-width pattern is not zero exactly when the pattern reaches `2^w`. -/
theorem highHalf_ne_zero_iff {w : Nat} (m : BitVec (w + w)) :
    (m.extractLsb' w w != 0#w) = true ↔ 2 ^ w ≤ m.toNat := by
  rw [bne_iff_ne, ne_eq, ← BitVec.toNat_inj, toNat_highHalf, BitVec.toNat_ofNat, Nat.zero_mod,
    Nat.div_eq_zero_iff_lt (by positivity), not_lt]

/-! ### Sums and differences -/

/-- The carry of the low halves is the carry input of the high ones (R241). -/
theorem add32_eq (a b : Word32) : add32 a b = (a + b, decide (2 ^ 32 ≤ a.toNat + b.toNat)) := by
  refine Prod.ext (BitVec.eq_of_toNat_eq ?_) ?_
  all_goals
    simp only [add32, add16c, toNat_append_add, BitVec.toNat_ofNat, BitVec.toNat_add, lo16_toNat, hi16_toNat,
      decide_eq_decide, Bool.toNat, Bool.cond_decide, Bool.cond_false]
    split <;> omega

/-- The borrow of the low halves is the borrow input of the high ones (R243). -/
theorem sub32_eq (a b : Word32) : sub32 a b = (a - b, decide (a.toNat < b.toNat)) := by
  refine Prod.ext (BitVec.eq_of_toNat_eq ?_) ?_
  all_goals
    simp only [sub32, subCarry, sub16c, toNat_append_add, BitVec.toNat_ofInt, BitVec.toNat_sub, lo16_toNat,
      hi16_toNat, decide_eq_decide, Bool.toNat, Bool.cond_decide, Bool.cond_false]
    split <;> omega

/-- Settles O25. -/
theorem halvesComposeToWholeSums : Obligations.HalvesComposeToWholeSums := fun a b => ⟨add32_eq a b, sub32_eq a b⟩

theorem sub16_eq (a b : Word16) : sub16 a b = (a - b, decide (a.toNat < b.toNat)) := by
  refine Prod.ext (BitVec.eq_of_toNat_eq ?_) (by simp [sub16, sub16c, subCarry])
  simp only [sub16, sub16c, BitVec.toNat_ofInt, BitVec.toNat_sub, Bool.toNat_false]
  omega

/-! ### Overflow on sign bits -/

theorem oadd_iff {w : Nat} (a b : BitVec w) :
    oadd a b (a + b) = true ↔ a.toInt + b.toInt < -2 ^ (w - 1) ∨ 2 ^ (w - 1) ≤ a.toInt + b.toInt := by
  have hrule : oadd a b (a + b) = a.saddOverflow b := by
    rw [BitVec.saddOverflow_eq, oadd]
    rfl
  simp [hrule, BitVec.saddOverflow, or_comm]

theorem osub_iff {w : Nat} (a b : BitVec w) :
    osub a b (a - b) = true ↔ a.toInt - b.toInt < -2 ^ (w - 1) ∨ 2 ^ (w - 1) ≤ a.toInt - b.toInt := by
  have hrule : osub a b (a - b) = a.ssubOverflow b := by
    rw [BitVec.ssubOverflow_eq, osub]
    cases a.msb <;> cases b.msb <;> cases (a - b).msb <;> rfl
  simp [hrule, BitVec.ssubOverflow, or_comm]

/-- Settles O26: the sign-bit rules are the library's signed overflow, at the two widths. -/
theorem signBitRulesAreSignedOverflow : Obligations.SignBitRulesAreSignedOverflow :=
  ⟨fun a b => ⟨oadd_iff a b, osub_iff a b⟩, fun a b => ⟨oadd_iff a b, osub_iff a b⟩⟩

/-! ### Unsigned products -/

/-- The product of two numbers of two digits in base `B`, from its four partial products. -/
theorem partialProducts (B al ah bl bh : Nat) :
    (ah * B + al) * (bh * B + bl) = al * bl + ah * bl * B + al * bh * B + ah * bh * (B * B) := by ring

theorem mul8_toNat (a b : Byte) : (mul8 a b).toNat = a.toNat * b.toNat := by
  have hlt : a.toNat * b.toNat < 2 ^ 8 * 2 ^ 8 := Nat.mul_lt_mul'' a.isLt b.isLt
  have ha := a.isLt
  have hb := b.isLt
  rw [mul8, BitVec.toNat_mul, BitVec.toNat_setWidth, BitVec.toNat_setWidth,
    Nat.mod_eq_of_lt (show a.toNat < 2 ^ 16 by omega), Nat.mod_eq_of_lt (show b.toNat < 2 ^ 16 by omega),
    Nat.mod_eq_of_lt (by omega)]

theorem byteOf16_digits (a : Word16) : (byteOf a 1).toNat * 2 ^ 8 + (byteOf a 0).toNat = a.toNat := by
  rw [← toNat_append_add]
  exact congrArg BitVec.toNat (bytes2_join a)

theorem half_digits (a : Word32) : (hi16 a).toNat * 2 ^ 16 + (lo16 a).toNat = a.toNat := by
  rw [hi16_toNat, lo16_toNat]
  omega

/-- No partial sum of the four products leaves 32 bits (R249). -/
theorem mul16_toNat (a b : Word16) : (mul16 a b).toNat = a.toNat * b.toNat := by
  have hp (x y : Byte) : x.toNat * y.toNat ≤ 255 * 255 :=
    Nat.mul_le_mul (by have := x.isLt; omega) (by have := y.isLt; omega)
  have h1 := hp (byteOf a 0) (byteOf b 0)
  have h2 := hp (byteOf a 1) (byteOf b 0)
  have h3 := hp (byteOf a 0) (byteOf b 1)
  have h4 := hp (byteOf a 1) (byteOf b 1)
  rw [← byteOf16_digits a, ← byteOf16_digits b, partialProducts]
  simp only [mul16, BitVec.toNat_add, BitVec.toNat_shiftLeft, BitVec.toNat_setWidth, mul8_toNat, Nat.shiftLeft_eq]
  omega

/-- No partial sum of the four products leaves 64 bits (R250). -/
theorem mul32_toNat (a b : Word32) : (mul32 a b).toNat = a.toNat * b.toNat := by
  have hp (x y : Word16) : x.toNat * y.toNat ≤ 65535 * 65535 :=
    Nat.mul_le_mul (by have := x.isLt; omega) (by have := y.isLt; omega)
  have h1 := hp (lo16 a) (lo16 b)
  have h2 := hp (hi16 a) (lo16 b)
  have h3 := hp (lo16 a) (hi16 b)
  have h4 := hp (hi16 a) (hi16 b)
  rw [← half_digits a, ← half_digits b, partialProducts]
  simp only [mul32, BitVec.toNat_add, BitVec.toNat_shiftLeft, BitVec.toNat_setWidth, mul16_toNat, Nat.shiftLeft_eq]
  omega

/-- Settles O28: the halves are those of the exact double-width product. -/
theorem partialProductsAreExact : Obligations.PartialProductsAreExact := by
  refine ⟨mul8_toNat, mul16_toNat, mul32_toNat, fun a b => ?_, fun a b => ?_⟩
  · rw [← mul16_toNat]
    exact ⟨toNat_highHalf (w := 16) _, toNat_lowHalf (w := 16) _, highHalf_ne_zero_iff (w := 16) _⟩
  · rw [← mul32_toNat]
    exact ⟨toNat_highHalf (w := 32) _, toNat_lowHalf (w := 32) _, highHalf_ne_zero_iff (w := 32) _⟩

/-! ### Signed products -/

theorem magnitude_toNat {w : Nat} (v : BitVec w) : (magnitude v).toNat = v.toInt.natAbs := by
  have hlt := v.isLt
  rw [magnitude, cm_eq, BitVec.toInt_eq_msb_cond]
  cases hv : v.msb
  · simp
  · have hpos : 0 < v.toNat := by
      have := (BitVec.msb_eq_true_iff_two_mul_ge).1 hv
      have : 0 < 2 ^ w := by positivity
      omega
    simp only [if_true, BitVec.toNat_neg]
    rw [Nat.mod_eq_of_lt (by omega)]
    omega

/-- A product of integers from the product of the magnitudes and the signs (R253). -/
theorem mul_of_natAbs (x y : Int) :
    x * y = if decide (x < 0) != decide (y < 0) then -((x.natAbs * y.natAbs : Nat) : Int)
      else ((x.natAbs * y.natAbs : Nat) : Int) := by
  rcases lt_or_ge x 0 with hx | hx <;> rcases lt_or_ge y 0 with hy | hy <;>
    simp [hx, hy, not_lt.2, abs_of_neg, abs_of_nonneg]

/-- The sign restored on the product of the magnitudes gives the signed product, where that is below half
the double width. -/
theorem signed_toInt {w n : Nat} (b a : BitVec w) (m : BitVec n) (hm : m.toNat = b.toInt.natAbs * a.toInt.natAbs)
    (hlt : 2 * m.toNat < 2 ^ n) : (signed (b.msb != a.msb) m).toInt = b.toInt * a.toInt := by
  have hpos : m.toInt = (m.toNat : Int) := BitVec.toInt_eq_toNat_of_lt hlt
  have hneg : (-m).toInt = -(m.toNat : Int) := by
    rw [BitVec.toInt_neg, hpos]
    exact Int.bmod_eq_of_le (by omega) (by omega)
  rw [mul_of_natAbs, ← hm, ← BitVec.msb_eq_toInt, ← BitVec.msb_eq_toInt, signed, cm_eq]
  cases b.msb != a.msb
  · exact hpos
  · exact hneg

theorem abs_toInt_le {w : Nat} (v : BitVec w) : |v.toInt| ≤ 2 ^ (w - 1) :=
  abs_le.2 ⟨v.le_toInt, v.toInt_lt.le⟩

theorem natAbs_toInt_le {w : Nat} (v : BitVec w) : v.toInt.natAbs ≤ 2 ^ (w - 1) := by
  zify
  exact abs_toInt_le v

/-- Settles O29: the double-width product is put together again from its halves, and the overflow rule reads
the upper half of the magnitudes' product. -/
theorem signedProductHasTrueHalves : Obligations.SignedProductHasTrueHalves := by
  refine ⟨fun b a => ?_, fun b a => ?_⟩
  · have hm : (mul16 (magnitude b) (magnitude a)).toNat = b.toInt.natAbs * a.toInt.natAbs := by
      rw [mul16_toNat, magnitude_toNat, magnitude_toNat]
    have hle : b.toInt.natAbs * a.toInt.natAbs ≤ 2 ^ 15 * 2 ^ 15 :=
      Nat.mul_le_mul (natAbs_toInt_le b) (natAbs_toInt_le a)
    refine ⟨?_, ?_⟩
    · rw [smul16, extract_join (m := 16) (n := 16) _ 0]
      simpa using signed_toInt b a _ hm (by omega)
    · rw [← hm]
      exact highHalf_ne_zero_iff (w := 16) _
  · have hm : (mul32 (magnitude b) (magnitude a)).toNat = b.toInt.natAbs * a.toInt.natAbs := by
      rw [mul32_toNat, magnitude_toNat, magnitude_toNat]
    have hle : b.toInt.natAbs * a.toInt.natAbs ≤ 2 ^ 31 * 2 ^ 31 :=
      Nat.mul_le_mul (natAbs_toInt_le b) (natAbs_toInt_le a)
    refine ⟨?_, ?_⟩
    · rw [smul32, extract_join (m := 32) (n := 32) _ 0]
      simpa using signed_toInt b a _ hm (by omega)
    · rw [← hm]
      exact highHalf_ne_zero_iff (w := 32) _

end Sys2Proof.Machine
end

section
/-! SUPPORT. The stack commands (40_dispatch_and_primitives.md R110, R111; 41_stack_manipulation.md): what a
handler leaves before its `sz`, and the status `sz` and the epilogue then make of it. -/

namespace Sys2Proof.Machine
open Sys2Proof

/-! ### The last lines of a handler -/

/-- `sz` and the epilogue touch the status alone. -/
theorem changes_finished {s u : State} {d : Int} {cells : List Int} {c : OpClass} {n : Nat}
    (h : Changes s u d cells c n) : Changes s u.sz.epilogue d cells c n := h

/-- Nor do they move a byte of the operands. -/
theorem finished_tos32 (u : State) : u.sz.epilogue.tos32 = u.tos32 := rfl
theorem finished_nos32 (u : State) : u.sz.epilogue.nos32 = u.nos32 := rfl
theorem finished_tosWire (u : State) : u.sz.epilogue.tosWire = u.tosWire := rfl
theorem finished_nosWire (u : State) : u.sz.epilogue.nosWire = u.nosWire := rfl

/-- A handler that raised nothing ends with the flags of what is below the pointer. -/
theorem finished_status {u : State} (hu : u.status = 0x80) :
    u.sz.epilogue.status = finalStatus ((u.peek (-1)).getLsbD 7) (u.zeroBelow u.cls) .none false := by
  simp [finalStatus, hu]

theorem finished_raise_status {u : State} (hu : u.status = 0x80) (e : ErrorCode) :
    (u.raise e).sz.epilogue.status = finalStatus ((u.peek (-1)).getLsbD 7) (u.zeroBelow u.cls) e false := by
  simp [finalStatus, hu, State.zeroBelow]

theorem finished_status16 {u : State} (hu : u.status = 0x80) (hc : u.cls = .i16) :
    u.sz.epilogue.status = finalStatus u.tos16.msb (u.tos16 == 0) .none false := by
  rw [finished_status hu, hc, ← State.tos16_msb, ← State.tos16_isZero]
  rfl

theorem finished_status32 {u : State} (hu : u.status = 0x80) (hc : u.cls = .i32) :
    u.sz.epilogue.status = finalStatus u.tos32.msb (u.tos32 == 0) .none false := by
  rw [finished_status hu, hc, ← State.tos32_msb, ← State.tos32_isZero]
  rfl

theorem finished_statusFloat {u : State} (hu : u.status = 0x80) (hc : u.cls = .f32) :
    u.sz.epilogue.status = floatStatus u.tosWire .none := by
  rw [finished_status hu, hc]
  rfl

/-- A code raised on operands that stay: CHS of the most negative value and DIV by zero. -/
theorem finish_raise16 (s : State) (e : ErrorCode) :
    let t := ((s.prologue .i16).raise e).sz.epilogue
    Changes s t 0 [] .i16 0 ∧ t.status = finalStatus s.tos16.msb (s.tos16 == 0) e false := by
  refine ⟨by simp [Changes], (finished_raise_status rfl e).trans ?_⟩
  exact congrArg₂ (finalStatus · · e false) s.tos16_msb.symm s.tos16_isZero.symm

theorem finish_raise32 (s : State) (e : ErrorCode) :
    let t := ((s.prologue .i32).raise e).sz.epilogue
    Changes s t 0 [] .i32 0 ∧ t.status = finalStatus s.tos32.msb (s.tos32 == 0) e false := by
  refine ⟨by simp [Changes], (finished_raise_status rfl e).trans ?_⟩
  exact congrArg₂ (finalStatus · · e false) s.tos32_msb.symm s.tos32_isZero.symm

/-! ### NOP and the unknown opcode -/

theorem prologue_epilogue (s : State) (c : OpClass) :
    (s.prologue c).epilogue = { s with status := 0x00, cls := c } :=
  congrArg (fun v => { s with status := v, cls := c }) (by decide :
    statusPack false (statusSign 0x80) (statusZero 0x80) (statusError 0x80) (statusCarry 0x80) = 0x00)

/-- Settles O40: between the prologue and the epilogue nothing happens. -/
theorem nopOnlyClearsTheFlags : Obligations.NopOnlyClearsTheFlags := by
  unfold Obligations.NopOnlyClearsTheFlags
  intro sr cls s
  rw [← prologue_epilogue]
  exact ⟨rfl, rfl⟩

/-! ### CHS and CHSF -/

theorem setTos16_changes (s : State) (r : Word16) :
    let u := (s.prologue .i16).setTos16 r
    Changes s u 0 [-2, -1] .i16 0 ∧ u.tos16 = r := by
  refine ⟨?_, ?_⟩
  · simp +contextual [Changes, State.setTos16, Memory.read_write]
  · simp [State.tos16, State.setTos16]

theorem setTos32_changes (s : State) (r : Word32) :
    let u := (s.prologue .i32).setTos32 r
    Changes s u 0 [-4, -3, -2, -1] .i32 0 ∧ u.tos32 = r := by
  refine ⟨?_, ?_⟩
  · simp +contextual [Changes, State.setTos32, State.setTosWire, Memory.read_write]
  · simp [State.tos32, State.setTos32, State.setTosWire, wireOf32]

/-- Settles O41: `cm` negates; the most negative value is the raise, any other the write at TOS. -/
theorem integerChangeSignNegates : Obligations.IntegerChangeSignNegates := by
  refine ⟨fun sr s => ⟨_, rfl, ?_⟩, fun sr s => ⟨_, rfl, ?_⟩⟩
  · simp only [State.tos16_prologue, cm_eq, decide_eq_true_eq]
    change if s.tos16 = minNeg 16 then _ else _
    split
    next hmin =>
      have h := finish_raise16 s .ovf
      rwa [hmin] at h
    next hmin =>
      obtain ⟨hchanges, htos⟩ := setTos16_changes s (-s.tos16)
      exact ⟨changes_finished hchanges, htos, by rw [finished_status16 rfl rfl, htos]⟩
  · simp only [State.tos32_prologue, cm_eq, decide_eq_true_eq]
    change if s.tos32 = minNeg 32 then _ else _
    split
    next hmin =>
      have h := finish_raise32 s .ovf
      rwa [hmin] at h
    next hmin =>
      obtain ⟨hchanges, htos⟩ := setTos32_changes s (-s.tos32)
      exact ⟨changes_finished hchanges, htos, by rw [finished_status32 rfl rfl, htos]⟩

theorem State.flipFloatSign_set {s : State} (h : (s.peek (-2)).getLsbD 7 = true) :
    s.flipFloatSign = s.poke (-1) (s.peek (-1) ^^^ 0x80) := if_pos h

theorem State.flipFloatSign_clear {s : State} (h : (s.peek (-2)).getLsbD 7 = false) : s.flipFloatSign = s :=
  if_neg (ne_true_of_eq_false h)

/-- A handler that has only started sees the stack of the state before. -/
theorem Entered.peek {s u : State} {n : Nat} (h : Entered s u n) (k : Int) : u.peek k = s.peek k := by
  rw [State.peek, State.peek, h.idx, h.x]

/-- The float at TOS after its sign bit flips, or the float itself where it is a zero (R132). -/
theorem Entered.finish_flip {s u : State} (h : Entered s u 0) :
    let w := s.tosWire
    let r := if w.b2.getLsbD 7 then { w with b3 := w.b3 ^^^ 0x80 } else w
    let t := u.flipFloatSign.sz.epilogue
    Changes s t 0 (if w.b2.getLsbD 7 then [-1] else []) .f32 0 ∧ t.tosWire = r ∧ t.status = floatStatus r .none := by
  intro w r t
  have hstatus : t.status = floatStatus u.flipFloatSign.tosWire .none :=
    finished_statusFloat ((State.flipFloatSign_status u).trans h.status) ((State.flipFloatSign_cls u).trans h.cls)
  suffices hflip : Changes s u.flipFloatSign 0 (if w.b2.getLsbD 7 then [-1] else []) .f32 0 ∧
      u.flipFloatSign.tosWire = r by
    obtain ⟨hchanges, htos⟩ := hflip
    exact ⟨changes_finished hchanges, htos, htos ▸ hstatus⟩
  cases hb : w.b2.getLsbD 7
  · rw [State.flipFloatSign_clear ((congrArg (·.getLsbD 7) (h.peek (-2))).trans hb)]
    rw [show r = w from if_neg (ne_true_of_eq_false hb)]
    simp [Changes, w, State.tosWire, h.peek, h.x, h.sp, h.cls, h.draws, h.pending, h.returned]
  · rw [State.flipFloatSign_set ((congrArg (·.getLsbD 7) (h.peek (-2))).trans hb)]
    rw [show r = { w with b3 := w.b3 ^^^ 0x80 } from if_pos hb]
    simp +contextual [Changes, w, State.tosWire, h.peek, h.x, h.sp, h.cls, h.draws, h.pending, h.returned,
      h.idx, Memory.read_write]

/-- Settles O42: under a float class the prologue leaves the latch that CHSF writes itself. -/
theorem floatChangeSignFlipsOneBit : Obligations.FloatChangeSignFlipsOneBit := by
  unfold Obligations.FloatChangeSignFlipsOneBit
  intro sr cls s
  refine ⟨fun hcls => ⟨_, rfl, ?_⟩, _, rfl, (entered_prologue s (classMap cls)).finish_flip⟩
  have h : Entered s (s.prologue (classMap cls)) 0 := ⟨rfl, rfl, rfl, classMap_float hcls, rfl, rfl, rfl⟩
  exact h.finish_flip

/-! ### Pushes of a whole operand -/

theorem push16_changes (s : State) (r : Word16) (c : OpClass) :
    let u := (s.prologue c).push16 r
    Changes s u 2 [0, 1] c 0 ∧ u.tos16 = r ∧ u.nos16 = s.tos16 := by
  refine ⟨?_, ?_, ?_⟩
  · simp +contextual [Changes, State.push16_eq, Memory.read_write]
  · simp [State.tos16, State.push16_eq]
  · simp [State.tos16, State.nos16, State.push16_eq]

theorem pushWire_changes (s : State) (w : Wire) (c : OpClass) :
    let u := (s.prologue c).pushWire w
    Changes s u 4 [0, 1, 2, 3] c 0 ∧ u.tosWire = w ∧ u.nosWire = s.tosWire := by
  refine ⟨?_, ?_, ?_⟩
  · simp +contextual [Changes, State.pushWire_eq, Memory.read_write]
  · simp [State.tosWire, State.pushWire_eq]
  · simp [State.tosWire, State.nosWire, State.pushWire_eq]

/-- Settles O43: π is pushed, then the latch written. -/
theorem pupiPushesPi : Obligations.PupiPushesPi := by
  unfold Obligations.PupiPushesPi
  intro sr cls s
  obtain ⟨hchanges, htos, _⟩ := pushWire_changes s piWire (classMap cls)
  refine ⟨_, rfl, ?_, htos, ?_⟩
  · obtain ⟨hsp, _, hdraws, hcells, hpending, hreturned⟩ := hchanges
    exact ⟨hsp, rfl, hdraws, hcells, hpending, hreturned⟩
  · rw [finished_statusFloat rfl rfl, State.tosWire_latch, htos]
    decide

/-- The 32-bit pattern of four bytes (R22). -/
def wordOfWire (w : Wire) : Word32 := w.b3 ++ w.b2 ++ w.b1 ++ w.b0

theorem wordOfWire_tosWire (s : State) : wordOfWire s.tosWire = s.tos32 := rfl

theorem wordOfWire_nosWire (s : State) : wordOfWire s.nosWire = s.nos32 := rfl

/-- Settles O44. -/
theorem ptoDuplicatesTheTop : Obligations.PtoDuplicatesTheTop := by
  refine ⟨fun sr s => ?_, fun sr s => ?_, fun sr cls s hcls => ?_⟩
  · obtain ⟨hchanges, htos, hnos⟩ := push16_changes s s.tos16 .i16
    exact ⟨_, rfl, changes_finished hchanges, htos, hnos, by
      rw [finished_status16 rfl rfl, State.tos16_prologue, htos]⟩
  · obtain ⟨hchanges, htos, hnos⟩ := pushWire_changes s s.tosWire .i32
    have htos32 := congrArg wordOfWire htos
    have hnos32 := congrArg wordOfWire hnos
    rw [wordOfWire_tosWire, wordOfWire_tosWire] at htos32
    rw [wordOfWire_nosWire, wordOfWire_tosWire] at hnos32
    exact ⟨_, rfl, changes_finished hchanges, htos32, hnos32, by
      rw [finished_status32 rfl rfl, State.tosWire_prologue, htos32]⟩
  · obtain ⟨hchanges, htos, hnos⟩ := pushWire_changes s s.tosWire (classMap cls)
    rw [classMap_float hcls] at hchanges htos hnos
    refine ⟨_, rfl, ?_⟩
    rw [classMap_float hcls]
    exact ⟨changes_finished hchanges, htos, hnos, by
      rw [finished_statusFloat rfl rfl, State.tosWire_prologue, htos]⟩

/-! ### POP and XCH -/

theorem moveSp_changes (s : State) (d : Int) (c : OpClass) :
    Changes s ((s.prologue c).moveSp d).sz.epilogue d [] c 0 := by
  simp [Changes]

/-- Settles O45: after the move the bytes below the pointer are those of NOS. -/
theorem popDropsAndReadsWhatIsExposed : Obligations.PopDropsAndReadsWhatIsExposed := by
  refine ⟨fun sr s => ⟨_, rfl, moveSp_changes s _ _, ?_⟩, fun sr s => ⟨_, rfl, moveSp_changes s _ _, ?_⟩,
    fun sr cls s hcls => ⟨_, rfl, ?_⟩⟩
  · rw [finished_status16 rfl rfl]
    simp [State.tos16, State.nos16]
  · rw [finished_status32 rfl rfl]
    simp [State.tos32, State.nos32]
  · rw [classMap_float hcls]
    refine ⟨moveSp_changes s _ _, ?_⟩
    rw [finished_statusFloat rfl rfl]
    simp [State.tosWire, State.nosWire]

theorem exchange4_changes (s : State) (c : OpClass) :
    let u := (s.prologue c).exchange4
    Changes s u 0 [-8, -7, -6, -5, -4, -3, -2, -1] c 0 ∧ u.tosWire = s.nosWire ∧ u.nosWire = s.tosWire := by
  refine ⟨?_, ?_, ?_⟩
  · simp +contextual [Changes, State.exchange4, State.swapCells_eq, Memory.read_write]
  · simp [State.tosWire, State.nosWire, State.exchange4, State.swapCells_eq]
  · simp [State.tosWire, State.nosWire, State.exchange4, State.swapCells_eq]

theorem swap16_changes (s : State) (c : OpClass) :
    let u := ((s.prologue c).swapCells (-2) (-4)).swapCells (-1) (-3)
    Changes s u 0 [-4, -3, -2, -1] c 0 ∧ u.tos16 = s.nos16 ∧ u.nos16 = s.tos16 := by
  refine ⟨?_, ?_, ?_⟩
  · simp +contextual [Changes, State.swapCells_eq, Memory.read_write]
  · simp [State.tos16, State.nos16, State.swapCells_eq]
  · simp [State.tos16, State.nos16, State.swapCells_eq]

/-- Settles O46. -/
theorem xchSwapsTheTopTwo : Obligations.XchSwapsTheTopTwo := by
  refine ⟨fun sr s => ?_, fun sr s => ?_, fun sr cls s hcls => ?_⟩
  · obtain ⟨hchanges, htos, hnos⟩ := swap16_changes s .i16
    exact ⟨_, rfl, changes_finished hchanges, htos, hnos, by rw [finished_status16 rfl rfl, htos]⟩
  · obtain ⟨hchanges, htos, hnos⟩ := exchange4_changes s .i32
    have htos32 := congrArg wordOfWire htos
    have hnos32 := congrArg wordOfWire hnos
    rw [wordOfWire_tosWire, wordOfWire_nosWire] at htos32
    rw [wordOfWire_nosWire, wordOfWire_tosWire] at hnos32
    refine ⟨_, rfl, changes_finished hchanges, (finished_tos32 _).trans htos32, (finished_nos32 _).trans hnos32, ?_⟩
    rw [finished_status32 (State.exchange4_status _) (State.exchange4_cls _), htos32]
  · obtain ⟨hchanges, htos, hnos⟩ := exchange4_changes s (classMap cls)
    rw [classMap_float hcls] at hchanges htos hnos
    refine ⟨_, rfl, ?_⟩
    rw [classMap_float hcls]
    refine ⟨changes_finished hchanges, (finished_tosWire _).trans htos, (finished_nosWire _).trans hnos, ?_⟩
    rw [finished_statusFloat (State.exchange4_status _) (State.exchange4_cls _), htos]

end Sys2Proof.Machine
end

section
/-! SUPPORT. ADD, SUB, MUL, MUU and DIV (43_integer_arithmetic.md): each command as one commit of the library's
result, and what that result is. -/

namespace Sys2Proof.Machine
open Sys2Proof

/-! ### Commands that commit -/

/-- A committed 16-bit result with any status and draws (R180). -/
def State.committed16 (s : State) (r : Word16) (v : BitVec 8) (n : Nat) : State :=
  { s.commit16 r with status := v, cls := .i16, draws := s.draws + n }

/-- A committed 32-bit result with any status and draws (R180). -/
def State.committed32 (s : State) (r : Word32) (v : BitVec 8) (n : Nat) : State :=
  { s.commit32 r with status := v, cls := .i32, draws := s.draws + n }

theorem committed16_changes (s : State) (r : Word16) (v : BitVec 8) (n : Nat) :
    Changes s (s.committed16 r v n) (-2) [-4, -3] .i16 n :=
  (commit16_changes s r v n).1

theorem committed16_tos16 (s : State) (r : Word16) (v : BitVec 8) (n : Nat) : (s.committed16 r v n).tos16 = r :=
  (commit16_changes s r v n).2

theorem committed32_changes (s : State) (r : Word32) (v : BitVec 8) (n : Nat) :
    Changes s (s.committed32 r v n) (-4) [-8, -7, -6, -5] .i32 n :=
  (commit32_changes s r v n).1

theorem committed32_tos32 (s : State) (r : Word32) (v : BitVec 8) (n : Nat) : (s.committed32 r v n).tos32 = r :=
  (commit32_changes s r v n).2

/-! ### ADD and SUB -/

theorem oadd_eq {w : Nat} (b a r : BitVec w) : oadd b a r = decide (b.msb = a.msb ∧ r.msb ≠ b.msb) := by
  simp [oadd, bne, beq_eq_decide]

theorem osub_eq {w : Nat} (b a r : BitVec w) : osub b a r = decide (b.msb ≠ a.msb ∧ r.msb ≠ b.msb) := by
  simp [osub, bne, beq_eq_decide]

theorem exec_addS (sr : Bool) (s : State) :
    exec (.addS sr) s = .next (s.committed16 (add16 s.nos16 s.tos16).1
      (finalStatus (add16 s.nos16 s.tos16).1.msb ((add16 s.nos16 s.tos16).1 == 0)
        (if oadd s.nos16 s.tos16 (add16 s.nos16 s.tos16).1 then .ovf else .none) (add16 s.nos16 s.tos16).2) 0) :=
  congrArg Host.Outcome.next (finish16_carry s _ _ _ _)

theorem exec_addD (sr : Bool) (s : State) :
    exec (.addD sr) s = .next (s.committed32 (add32 s.nos32 s.tos32).1
      (finalStatus (add32 s.nos32 s.tos32).1.msb ((add32 s.nos32 s.tos32).1 == 0)
        (if oadd s.nos32 s.tos32 (add32 s.nos32 s.tos32).1 then .ovf else .none) (add32 s.nos32 s.tos32).2) 0) :=
  congrArg Host.Outcome.next (finish32_carry s _ _ _ _)

theorem exec_subS (sr : Bool) (s : State) :
    exec (.subS sr) s = .next (s.committed16 (sub16 s.nos16 s.tos16).1
      (finalStatus (sub16 s.nos16 s.tos16).1.msb ((sub16 s.nos16 s.tos16).1 == 0)
        (if osub s.nos16 s.tos16 (sub16 s.nos16 s.tos16).1 then .ovf else .none) (sub16 s.nos16 s.tos16).2) 0) :=
  congrArg Host.Outcome.next (finish16_carry s _ _ _ _)

theorem exec_subD (sr : Bool) (s : State) :
    exec (.subD sr) s = .next (s.committed32 (sub32 s.nos32 s.tos32).1
      (finalStatus (sub32 s.nos32 s.tos32).1.msb ((sub32 s.nos32 s.tos32).1 == 0)
        (if osub s.nos32 s.tos32 (sub32 s.nos32 s.tos32).1 then .ovf else .none) (sub32 s.nos32 s.tos32).2) 0) :=
  congrArg Host.Outcome.next (finish32_carry s _ _ _ _)

theorem add16_eq (a b : Word16) : add16 a b = (a + b, decide (2 ^ 16 ≤ a.toNat + b.toNat)) :=
  sixteenBitSumAndCarry.2 a b

/-- Settles O49. -/
theorem addReplacesBothBySum : Obligations.AddReplacesBothBySum := by
  refine ⟨fun sr s => ⟨_, exec_addS sr s, ?_⟩, fun sr s => ⟨_, exec_addD sr s, ?_⟩⟩
  · simp only [add16_eq, oadd_eq, decide_eq_true_eq]
    exact ⟨committed16_changes .., committed16_tos16 .., rfl⟩
  · simp only [add32_eq, oadd_eq, decide_eq_true_eq]
    exact ⟨committed32_changes .., committed32_tos32 .., rfl⟩

/-- Settles O50. -/
theorem subReplacesBothByDifference : Obligations.SubReplacesBothByDifference := by
  refine ⟨fun sr s => ⟨_, exec_subS sr s, ?_⟩, fun sr s => ⟨_, exec_subD sr s, ?_⟩⟩
  · simp only [sub16_eq, osub_eq, decide_eq_true_eq]
    exact ⟨committed16_changes .., committed16_tos16 .., rfl⟩
  · simp only [sub32_eq, osub_eq, decide_eq_true_eq]
    exact ⟨committed32_changes .., committed32_tos32 .., rfl⟩

/-! ### MUL and MUU -/

/-- A signed pattern of two halves: the upper one signed, the lower one not. -/
theorem toInt_halves {w : Nat} (hw : w ≠ 0) (hi lo : BitVec w) :
    (hi ++ lo).toInt = hi.toInt * 2 ^ w + (lo.toNat : Int) := by
  rw [BitVec.toInt_append, if_neg (by simpa using hw), mul_comm]

/-- The low half of a signed product is the product mod 2^w (R174, R175). -/
theorem lowHalf_of_toInt_append {w : Nat} (hw : w ≠ 0) {hi lo b a : BitVec w}
    (h : (hi ++ lo).toInt = b.toInt * a.toInt) : lo = b * a := by
  have hpow : BitVec.ofInt w (2 ^ w) = 0 := by
    apply BitVec.eq_of_toNat_eq
    simp [BitVec.toNat_ofInt]
  have hlow : BitVec.ofInt w (hi.toInt * 2 ^ w + (lo.toNat : Int)) = lo := by
    rw [BitVec.ofInt_add, BitVec.ofInt_mul, hpow, mul_zero, zero_add, BitVec.ofInt_natCast, BitVec.ofNat_toNat,
      BitVec.setWidth_eq]
  rw [← hlow, ← toInt_halves hw, h, BitVec.ofInt_mul, BitVec.ofInt_toInt, BitVec.ofInt_toInt]

/-- The high half of a signed product is its floor by 2^w (R176, R177). -/
theorem highHalf_of_toInt_append {w : Nat} (hw : w ≠ 0) {hi lo : BitVec w} {p : Int}
    (h : (hi ++ lo).toInt = p) : hi.toInt = p / 2 ^ w := by
  have hlt : (lo.toNat : Int) < 2 ^ w := by exact_mod_cast lo.isLt
  rw [← h, toInt_halves hw, add_comm, Int.add_mul_ediv_right _ _ (by positivity),
    Int.ediv_eq_zero_of_lt (by omega) hlt, zero_add]

theorem smul16_lo (b a : Word16) : (smul16 b a).lo = b * a :=
  lowHalf_of_toInt_append (by decide) (signedProductHasTrueHalves.1 b a).1

theorem smul32_lo (b a : Word32) : (smul32 b a).lo = b * a :=
  lowHalf_of_toInt_append (by decide) (signedProductHasTrueHalves.2 b a).1

theorem smul16_ovf (b a : Word16) : (smul16 b a).ovf = decide (2 ^ 16 ≤ b.toInt.natAbs * a.toInt.natAbs) :=
  Bool.eq_iff_iff.2 ((signedProductHasTrueHalves.1 b a).2.trans decide_eq_true_iff.symm)

theorem smul32_ovf (b a : Word32) : (smul32 b a).ovf = decide (2 ^ 32 ≤ b.toInt.natAbs * a.toInt.natAbs) :=
  Bool.eq_iff_iff.2 ((signedProductHasTrueHalves.2 b a).2.trans decide_eq_true_iff.symm)

theorem exec_mulS (sr : Bool) (s : State) :
    exec (.mulS sr) s = .next (s.committed16 (smul16 s.nos16 s.tos16).lo
      (finalStatus (smul16 s.nos16 s.tos16).lo.msb ((smul16 s.nos16 s.tos16).lo == 0)
        (if (smul16 s.nos16 s.tos16).ovf then .ovf else .none) false) 0) :=
  congrArg Host.Outcome.next (finish16 s _ _ _)

theorem exec_mulD (sr : Bool) (s : State) :
    exec (.mulD sr) s = .next (s.committed32 (smul32 s.nos32 s.tos32).lo
      (finalStatus (smul32 s.nos32 s.tos32).lo.msb ((smul32 s.nos32 s.tos32).lo == 0)
        (if (smul32 s.nos32 s.tos32).ovf then .ovf else .none) false) 0) :=
  congrArg Host.Outcome.next (finish32 s _ _ _)

theorem exec_muuS (sr : Bool) (s : State) :
    exec (.muuS sr) s = .next (s.committed16 (smul16 s.nos16 s.tos16).hi
      (finalStatus (smul16 s.nos16 s.tos16).hi.msb ((smul16 s.nos16 s.tos16).hi == 0) .none false) 0) :=
  congrArg Host.Outcome.next (finish16 s _ false .none)

theorem exec_muuD (sr : Bool) (s : State) :
    exec (.muuD sr) s = .next (s.committed32 (smul32 s.nos32 s.tos32).hi
      (finalStatus (smul32 s.nos32 s.tos32).hi.msb ((smul32 s.nos32 s.tos32).hi == 0) .none false) 0) :=
  congrArg Host.Outcome.next (finish32 s _ false .none)

/-- Settles O51. -/
theorem mulKeepsTheLowHalf : Obligations.MulKeepsTheLowHalf := by
  refine ⟨fun sr s => ⟨_, exec_mulS sr s, ?_⟩, fun sr s => ⟨_, exec_mulD sr s, ?_⟩⟩
  · simp only [smul16_lo, smul16_ovf, decide_eq_true_eq]
    exact ⟨committed16_changes .., committed16_tos16 .., rfl⟩
  · simp only [smul32_lo, smul32_ovf, decide_eq_true_eq]
    exact ⟨committed32_changes .., committed32_tos32 .., rfl⟩

/-- Settles O52. -/
theorem muuKeepsTheHighHalf : Obligations.MuuKeepsTheHighHalf := by
  refine ⟨fun sr s => ⟨_, exec_muuS sr s, ?_⟩, fun sr s => ⟨_, exec_muuD sr s, ?_⟩⟩
  · rw [committed16_tos16]
    exact ⟨committed16_changes .., highHalf_of_toInt_append (by decide) (signedProductHasTrueHalves.1 _ _).1, rfl⟩
  · rw [committed32_tos32]
    exact ⟨committed32_changes .., highHalf_of_toInt_append (by decide) (signedProductHasTrueHalves.2 _ _).1, rfl⟩

/-! ### DIV -/

/-- DIV without a quotient: the operands stay under DIV0 (R178). -/
theorem exec_divS_none (sr : Bool) {s : State} (h : divTrunc s.nos16 s.tos16 = none) :
    exec (.divS sr) s = .next ((s.prologue .i16).raise .div0).sz.epilogue := by
  unfold exec execDivS
  simp [runCommand, h]

theorem exec_divD_none (sr : Bool) {s : State} (h : divTrunc s.nos32 s.tos32 = none) :
    exec (.divD sr) s = .next ((s.prologue .i32).raise .div0).sz.epilogue := by
  unfold exec execDivD State.divHandler32
  simp [runCommand, h]

/-- Settles O54. -/
theorem divByZeroLeavesTheStack : Obligations.DivByZeroLeavesTheStack := by
  refine ⟨fun sr s h => ⟨_, exec_divS_none sr (h ▸ divTrunc_zero _), ?_⟩,
    fun sr s h => ⟨_, exec_divD_none sr (h ▸ divTrunc_zero _), ?_⟩⟩
  · have hfinish := finish_raise16 s .div0
    rwa [h] at hfinish
  · have hfinish := finish_raise32 s .div0
    rwa [h] at hfinish

theorem isMinNegByMinusOne_eq {w : Nat} (b a : BitVec w) :
    isMinNegByMinusOne b a = decide (b = minNeg w ∧ a = BitVec.allOnes w) := by
  simp [isMinNegByMinusOne, beq_eq_decide]

/-- The end of DIV.S: off the corner nothing is drawn, at the corner one draw chooses OVF or NONE (R178). -/
theorem finish16_drawDivOvf (s : State) (q : Word16) (corner : Bool) :
    (((s.prologue .i16).commit16 q).drawDivOvf corner).sz.epilogue =
      s.committed16 q (finalStatus q.msb (q == 0)
        (if corner && Config.divMinNegOvf s.draws then .ovf else .none) false) corner.toNat := by
  cases corner
  · exact finish16 s q false .ovf
  · exact finish16 { s with draws := s.draws + 1 } q _ .ovf

/-- The end of DIV.D. -/
theorem finish32_drawDivOvf (s : State) (q : Word32) (corner : Bool) :
    (((s.prologue .i32).commit32 q).drawDivOvf corner).sz.epilogue =
      s.committed32 q (finalStatus q.msb (q == 0)
        (if corner && Config.divMinNegOvf s.draws then .ovf else .none) false) corner.toNat := by
  cases corner
  · exact finish32 s q false .ovf
  · exact finish32 { s with draws := s.draws + 1 } q _ .ovf

theorem exec_divS_some (sr : Bool) {s : State} {q : Word16} (h : divTrunc s.nos16 s.tos16 = some q) :
    exec (.divS sr) s = .next (s.committed16 q (finalStatus q.msb (q == 0)
      (if isMinNegByMinusOne s.nos16 s.tos16 && Config.divMinNegOvf s.draws then .ovf else .none) false)
      (isMinNegByMinusOne s.nos16 s.tos16).toNat) := by
  rw [← finish16_drawDivOvf]
  unfold exec execDivS
  simp [runCommand, h]

theorem exec_divD_some (sr : Bool) {s : State} {q : Word32} (h : divTrunc s.nos32 s.tos32 = some q) :
    exec (.divD sr) s = .next (s.committed32 q (finalStatus q.msb (q == 0)
      (if isMinNegByMinusOne s.nos32 s.tos32 && Config.divMinNegOvf s.draws then .ovf else .none) false)
      (isMinNegByMinusOne s.nos32 s.tos32).toNat) := by
  rw [← finish32_drawDivOvf]
  unfold exec execDivD State.divHandler32
  simp [runCommand, h]

/-- Settles O53: `divTrunc_quotient` names the quotient, at the corner and off it. -/
theorem divCommitsTheQuotient : Obligations.DivCommitsTheQuotient := by
  refine ⟨fun sr s h => ?_, fun sr s h => ?_⟩
  · obtain ⟨q, hq, hvalue⟩ := divTrunc_quotient s.nos16 h
    refine ⟨_, exec_divS_some sr hq, ?_⟩
    rw [isMinNegByMinusOne_eq]
    change if s.nos16 = minNeg 16 ∧ s.tos16 = BitVec.allOnes 16 then _ else _
    split at hvalue
    next hcorner =>
      rw [if_pos hcorner, decide_eq_true hcorner, hvalue]
      exact ⟨committed16_changes .., committed16_tos16 .., rfl⟩
    next hcorner =>
      rw [if_neg hcorner, decide_eq_false hcorner, committed16_tos16]
      exact ⟨committed16_changes .., hvalue.1, rfl⟩
  · obtain ⟨q, hq, hvalue⟩ := divTrunc_quotient s.nos32 h
    refine ⟨_, exec_divD_some sr hq, ?_⟩
    rw [isMinNegByMinusOne_eq]
    change if s.nos32 = minNeg 32 ∧ s.tos32 = BitVec.allOnes 32 then _ else _
    split at hvalue
    next hcorner =>
      rw [if_pos hcorner, decide_eq_true hcorner, hvalue]
      exact ⟨committed32_changes .., committed32_tos32 .., rfl⟩
    next hcorner =>
      rw [if_neg hcorner, decide_eq_false hcorner, committed32_tos32]
      exact ⟨committed32_changes .., hvalue.1, rfl⟩

end Sys2Proof.Machine
end

section
/-! SUPPORT. The float format library (47_float_format_library.md R270 to R286): the encoder's contract, the
round trips between bytes and records of the four formats, and the value of each wire float. -/

namespace Sys2Proof.Machine
open Sys2Proof

/-! ### The encoder's contract -/

theorem encodeRecord_zero {c : Canon} (h : c.isNormal = false) (bias lowest highest : Int) (layout : Int → Wire) :
    encodeRecord c bias lowest highest layout = some Wire.zero := by
  simp [encodeRecord, h]

theorem encodeRecord_inRange {c : Canon} (h : c.isNormal = true) {bias lowest highest : Int} (layout : Int → Wire)
    (hlow : lowest ≤ c.exponent + bias) (hhigh : c.exponent + bias ≤ highest) :
    encodeRecord c bias lowest highest layout = some (layout (c.exponent + bias)) := by
  rw [encodeRecord, if_pos h, if_neg (by omega)]

theorem encodeRecord_mk {sign : Bool} {e : Int} {m : Byte} {l : BitVec 16} (h : m.getLsbD 7 = true)
    {bias lowest highest : Int} (layout : Int → Wire) (hlow : lowest ≤ e + bias) (hhigh : e + bias ≤ highest) :
    encodeRecord ⟨sign, e, m, l⟩ bias lowest highest layout = some (layout (e + bias)) :=
  encodeRecord_inRange (c := ⟨sign, e, m, l⟩) h layout hlow hhigh

theorem encodeRecord_isSome_iff {c : Canon} (h : c.isNormal = true) (bias lowest highest : Int)
    (layout : Int → Wire) : (encodeRecord c bias lowest highest layout).isSome = true ↔
      lowest ≤ c.exponent + bias ∧ c.exponent + bias ≤ highest := by
  rw [encodeRecord, if_pos h]
  dsimp only
  split
  next hout => exact ⟨fun hsome => absurd hsome (by simp), fun hin => by omega⟩
  next hin => exact ⟨fun _ => by omega, fun _ => rfl⟩

/-- Settles O33: the four encoders differ in bias and bounds alone. -/
theorem encodersFailExactlyOutOfRange : Obligations.EncodersFailExactlyOutOfRange := by
  unfold Obligations.EncodersFailExactlyOutOfRange canonToAm canonToIeee canonToMs canonToHitech
  intro c
  refine ⟨fun h => ?_, fun h => ?_⟩
  · exact ⟨encodeRecord_zero h .., encodeRecord_zero h .., encodeRecord_zero h .., encodeRecord_zero h ..⟩
  · simp only [encodeRecord_isSome_iff h]
    omega

/-! ### Bytes cut into fields and joined again -/

theorem signAndExponent_fields (b : Byte) : signAndExponent (b.getLsbD 7) (b.extractLsb' 0 7) = b := by
  revert b
  decide

theorem signAndExponent_sign (sign : Bool) (e : BitVec 7) : (signAndExponent sign e).getLsbD 7 = sign := by
  revert sign e
  decide

theorem signAndExponent_exponent (sign : Bool) (e : BitVec 7) : (signAndExponent sign e).extractLsb' 0 7 = e :=
  append_low (BitVec.ofBool sign) e

theorem leadingOne_set (b : Byte) : (0x80 ||| b).getLsbD 7 = true := by
  revert b
  decide

theorem leadingOne_rest (b : Byte) : (0x80 ||| b).extractLsb' 0 7 = b.extractLsb' 0 7 := by
  revert b
  decide

/-- The leading one put back over whatever bit a format keeps in its place. -/
theorem leadingOne_restored {m : Byte} (h : m.getLsbD 7 = true) (b : BitVec 1) :
    (0x80 ||| (b ++ m.extractLsb' 0 7) : Byte) = m := by
  revert m b
  decide

theorem word16_bytes (v : BitVec 16) : (v.extractLsb' 8 8 ++ v.extractLsb' 0 8 : BitVec 16) = v :=
  bytes2_join v

theorem ofInt_natCast_toNat {n : Nat} (v : BitVec n) : BitVec.ofInt n (v.toNat : Int) = v := by
  rw [BitVec.ofInt_natCast, BitVec.ofNat_toNat, BitVec.setWidth_eq]

/-! ### From bytes to a record and back -/

theorem canonToAm_amToCanon (w : Wire) : canonToAm (amToCanon w) = some (if w.b2.getLsbD 7 then w else Wire.zero) := by
  cases hb : w.b2.getLsbD 7
  · rw [amToCanon_zero hb]
    rfl
  · have hlow := (w.b3.extractLsb' 0 7).le_toInt
    have hhigh := (w.b3.extractLsb' 0 7).toInt_lt
    rw [amToCanon_normal hb, canonToAm, encodeRecord_mk hb]
    · simp only [append_low, append_high, sub_add_cancel, BitVec.ofInt_toInt, signAndExponent_fields, if_true]
    · omega
    · omega

theorem canonToHitech_hitechToCanon (w : Wire) :
    canonToHitech (hitechToCanon w) = some (if w.b2.getLsbD 7 then w else Wire.zero) := by
  cases hb : w.b2.getLsbD 7
  · rw [hitechToCanon, if_neg (ne_true_of_eq_false hb)]
    rfl
  · have hhigh := (w.b3.extractLsb' 0 7).isLt
    rw [hitechToCanon, if_pos hb, canonToHitech, encodeRecord_mk hb]
    · simp only [append_low, append_high, sub_add_cancel, ofInt_natCast_toNat, signAndExponent_fields, if_true]
    · omega
    · omega

theorem canonToMs_msToCanon (w : Wire) : canonToMs (msToCanon w) = some (if w.b3 = 0 then Wire.zero else w) := by
  unfold msToCanon
  by_cases hb : w.b3 = 0
  · rw [if_pos hb, if_pos hb]
    rfl
  · have hpos : w.b3.toNat ≠ 0 := fun h => hb (BitVec.eq_of_toNat_eq h)
    have hhigh := w.b3.isLt
    rw [if_neg hb, if_neg hb, canonToMs, encodeRecord_mk (leadingOne_set _)]
    · simp only [append_low, append_high, sub_add_cancel, ofInt_natCast_toNat, leadingOne_rest, signAndExponent_fields]
    · omega
    · omega

/-- The exponent field of an IEEE754 single, over two bytes (R275). -/
def ieeeExponent (w : Wire) : BitVec 8 := w.b3.extractLsb' 0 7 ++ w.b2.extractLsb' 7 1

theorem ieeeToCanon_eq (w : Wire) : ieeeToCanon w =
    if ieeeExponent w = 0 then some Canon.zero else if ieeeExponent w = 255 then none
    else some ⟨w.b3.getLsbD 7, ((ieeeExponent w).toNat : Int) - 127, 0x80 ||| w.b2, w.b1 ++ w.b0⟩ := by
  have h255 : ieeeDecodeRefuses (ieeeExponent w).toNat = true ↔ ieeeExponent w = 255 := by
    rw [ieeeDecodeRefuses, beq_iff_eq, ← BitVec.toNat_inj]
    rfl
  unfold ieeeToCanon
  change (if ieeeExponent w = 0 then _ else if ieeeDecodeRefuses (ieeeExponent w).toNat = true then _ else _) = _
  simp only [h255]
  rfl

theorem canonToIeee_ieeeToCanon (w : Wire) : (ieeeToCanon w).bind canonToIeee =
    if ieeeExponent w = 0 then some Wire.zero else if ieeeExponent w = 255 then none else some w := by
  rw [ieeeToCanon_eq]
  by_cases hzero : ieeeExponent w = 0
  · rw [if_pos hzero, if_pos hzero]
    rfl
  · by_cases hones : ieeeExponent w = 255
    · simp [hones]
    · have hpos : (ieeeExponent w).toNat ≠ 0 := fun h => hzero (BitVec.eq_of_toNat_eq h)
      have hlt : (ieeeExponent w).toNat ≠ 255 := fun h => hones (BitVec.eq_of_toNat_eq h)
      have hhigh := (ieeeExponent w).isLt
      have hb2 : w.b2.extractLsb' 7 1 ++ w.b2.extractLsb' 0 7 = w.b2 := (extract_join w.b2 0).trans (by simp)
      simp only [if_neg hzero, if_neg hones, Option.bind_some]
      rw [canonToIeee, encodeRecord_mk (leadingOne_set _)]
      · simp only [append_low, append_high, sub_add_cancel, ofInt_natCast_toNat, leadingOne_rest, ieeeExponent,
          signAndExponent_fields, hb2]
      · omega
      · omega

/-- Settles O31. -/
theorem wireBytesSurviveTheRoundTrip : Obligations.WireBytesSurviveTheRoundTrip := fun w =>
  ⟨canonToAm_amToCanon w, canonToHitech_hitechToCanon w, canonToMs_msToCanon w, canonToIeee_ieeeToCanon w⟩

/-! ### From a record to bytes and back -/

theorem toInt_ofInt7 {e : Int} (hlow : -64 ≤ e) (hhigh : e ≤ 63) : (BitVec.ofInt 7 e).toInt = e := by
  rw [BitVec.toInt_ofInt]
  exact Int.bmod_eq_of_le (by omega) (by omega)

theorem toNat_ofInt {n : Nat} {e : Int} (hlow : 0 ≤ e) (hhigh : e < 2 ^ n) : ((BitVec.ofInt n e).toNat : Int) = e := by
  rw [BitVec.toNat_ofInt, Int.toNat_of_nonneg (Int.emod_nonneg _ (by positivity))]
  exact Int.emod_eq_of_lt hlow (by exact_mod_cast hhigh)

theorem amToCanon_canonToAm {c : Canon} (h : c.isNormal = true) (hlow : -65 ≤ c.exponent) (hhigh : c.exponent ≤ 62) :
    ∃ w, canonToAm c = some w ∧ amToCanon w = c := by
  refine ⟨_, encodeRecord_inRange h _ (by omega) (by omega), ?_⟩
  refine (amToCanon_normal ?_).trans ?_
  · exact h
  simp only [signAndExponent_sign, signAndExponent_exponent, toInt_ofInt7 (e := c.exponent + 1) (by omega) (by omega),
    add_sub_cancel_right, word16_bytes]

theorem hitechToCanon_canonToHitech {c : Canon} (h : c.isNormal = true) (hlow : -65 ≤ c.exponent)
    (hhigh : c.exponent ≤ 62) : ∃ w, canonToHitech c = some w ∧ hitechToCanon w = c := by
  refine ⟨_, encodeRecord_inRange h _ (by omega) (by omega), ?_⟩
  refine (if_pos ?_).trans ?_
  · exact h
  simp only [signAndExponent_sign, signAndExponent_exponent,
    toNat_ofInt (n := 7) (e := c.exponent + 65) (by omega) (by omega), add_sub_cancel_right, word16_bytes]

theorem msToCanon_canonToMs {c : Canon} (h : c.isNormal = true) (hlow : -128 ≤ c.exponent)
    (hhigh : c.exponent ≤ 126) : ∃ w, canonToMs c = some w ∧ msToCanon w = c := by
  refine ⟨_, encodeRecord_inRange h _ (by omega) (by omega), ?_⟩
  have hb3 : ((BitVec.ofInt 8 (c.exponent + 129)).toNat : Int) = c.exponent + 129 := toNat_ofInt (by omega) (by omega)
  have hne : BitVec.ofInt 8 (c.exponent + 129) ≠ 0 := fun hz => by
    rw [hz] at hb3
    change (0 : Int) = _ at hb3
    omega
  rw [msToCanon, if_neg hne]
  simp only [signAndExponent_sign, hb3, add_sub_cancel_right, word16_bytes]
  rw [signAndExponent, leadingOne_restored h]

theorem ieeeToCanon_canonToIeee {c : Canon} (h : c.isNormal = true) (hlow : -126 ≤ c.exponent)
    (hhigh : c.exponent ≤ 127) : ∃ w, canonToIeee c = some w ∧ ieeeToCanon w = some c := by
  refine ⟨_, encodeRecord_inRange h _ (by omega) (by omega), ?_⟩
  have hfield : ((BitVec.ofInt 8 (c.exponent + 127)).toNat : Int) = c.exponent + 127 :=
    toNat_ofInt (by omega) (by omega)
  have hne (n : Nat) (hn : n < 256) (hc : c.exponent + 127 ≠ n) :
      BitVec.ofInt 8 (c.exponent + 127) ≠ BitVec.ofNat 8 n := by
    intro he
    rw [he, BitVec.toNat_ofNat, Nat.mod_eq_of_lt hn] at hfield
    exact hc hfield.symm
  have hjoin (v : BitVec 8) : v.extractLsb' 1 7 ++ v.extractLsb' 0 1 = v := (extract_join v 0).trans (by simp)
  rw [ieeeToCanon_eq]
  simp only [ieeeExponent, signAndExponent_exponent, append_high, hjoin]
  rw [if_neg (show _ ≠ (0 : BitVec 8) from hne 0 (by omega) (by push_cast; omega)),
    if_neg (show _ ≠ (255 : BitVec 8) from hne 255 (by omega) (by push_cast; omega))]
  simp only [signAndExponent_sign, hfield, add_sub_cancel_right, word16_bytes, leadingOne_restored h]

/-- Settles O32: a zero record encodes to the four zero bytes, which every format reads as the zero record. -/
theorem recordsSurviveTheRoundTrip : Obligations.RecordsSurviveTheRoundTrip := by
  unfold Obligations.RecordsSurviveTheRoundTrip
  refine fun c => ⟨fun h => ?_, fun h => ?_⟩
  · exact ⟨amToCanon_canonToAm h, ieeeToCanon_canonToIeee h, msToCanon_canonToMs h, hitechToCanon_canonToHitech h⟩
  · exact ⟨⟨_, encodeRecord_zero h .., rfl⟩, ⟨_, encodeRecord_zero h .., rfl⟩, ⟨_, encodeRecord_zero h .., rfl⟩,
      ⟨_, encodeRecord_zero h .., rfl⟩⟩

/-! ### Values -/

/-- The value of a normal record, as R271 writes it. -/
theorem Canon.val_normal {c : Canon} (h : c.isNormal = true) :
    c.val = if c.sign then -((c.mantissa.toNat : ℚ) / 2 ^ 23 * (2 : ℚ) ^ c.exponent)
      else (c.mantissa.toNat : ℚ) / 2 ^ 23 * (2 : ℚ) ^ c.exponent := by
  have hscale : (c.mantissa.toNat : ℚ) * (2 : ℚ) ^ (c.exponent - 23) =
      (c.mantissa.toNat : ℚ) / 2 ^ 23 * (2 : ℚ) ^ c.exponent := by
    rw [zpow_sub₀ (by norm_num)]
    norm_cast
    ring
  rw [Canon.val_eq, if_pos h, hscale]
  cases c.sign <;> simp

/-- The value of a decoded record, from the bytes of its mantissa. -/
theorem Canon.val_bytes {m : Byte} (h : m.getLsbD 7 = true) (sign : Bool) (e : Int) (b1 b0 : Byte) :
    (⟨sign, e, m, b1 ++ b0⟩ : Canon).val = if sign then -(((m ++ b1 ++ b0).toNat : ℚ) / 2 ^ 23 * (2 : ℚ) ^ e)
      else ((m ++ b1 ++ b0).toNat : ℚ) / 2 ^ 23 * (2 : ℚ) ^ e := by
  have hm : (⟨sign, e, m, b1 ++ b0⟩ : Canon).mantissa.toNat = (m ++ b1 ++ b0).toNat := by
    simp only [Canon.mantissa, toNat_append_add]
    omega
  rw [Canon.val_normal (c := ⟨sign, e, m, b1 ++ b0⟩) h, hm]

/-- A mantissa with its leading one put in is `2^23` and the fraction. -/
theorem mantissa_leadingOne (b2 b1 b0 : Byte) :
    ((((0x80 ||| b2) ++ b1 ++ b0).toNat : Nat) : ℚ) / 2 ^ 23 =
      1 + ((b2.extractLsb' 0 7 ++ b1 ++ b0).toNat : ℚ) / 2 ^ 23 := by
  have hb2 : (0x80 ||| b2).toNat = 2 ^ 7 + (b2.extractLsb' 0 7).toNat := by
    revert b2
    decide
  have hsum : ((0x80 ||| b2) ++ b1 ++ b0).toNat = 2 ^ 23 + (b2.extractLsb' 0 7 ++ b1 ++ b0).toNat := by
    simp only [toNat_append_add, hb2]
    omega
  rw [hsum]
  push_cast
  ring

/-- Settles O34: each decoder's record is zero or has its leading one set, and `Canon.val_bytes` gives its
value. -/
theorem amFloatHasItsValue : Obligations.AmFloatHasItsValue := by
  unfold Obligations.AmFloatHasItsValue
  intro w negateIf fraction e
  refine ⟨?_, ?_, ?_, ?_⟩
  · cases hb : w.b2.getLsbD 7
    · exact amToCanon_val_zero hb
    · have hhalf (x : ℚ) (k : ℤ) : x / 2 ^ 23 * (2 : ℚ) ^ (k - 1) = x / 2 ^ 24 * (2 : ℚ) ^ k := by
        rw [zpow_sub_one₀ (by norm_num)]
        ring
      rw [amToCanon_normal hb, Canon.val_bytes hb, hhalf]
      rfl
  · rw [hitechToCanon]
    split
    next hb => exact Canon.val_bytes hb ..
    next => rfl
  · rw [ieeeToCanon_eq]
    change Option.map Canon.val _ = if ieeeExponent w = 0 then _ else if ieeeExponent w = 255 then _ else _
    split
    · rfl
    · split
      · rfl
      · rw [Option.map_some, Canon.val_bytes (leadingOne_set _), mantissa_leadingOne]
        rfl
  · rw [msToCanon]
    split
    · rfl
    · rw [Canon.val_bytes (leadingOne_set _), mantissa_leadingOne]

end Sys2Proof.Machine
end

section
/-! SUPPORT. The steps from a rational to a committed float (44_float_arithmetic.md R191 to R193): the exponent
range check, the rounding of `normalise`, that one fold suffices for the arithmetic, and the conversions between
records and integers (42_conversions.md R154, R155). -/

namespace Sys2Proof.Machine
open Sys2Proof

/-! ### The exponent range check -/

/-- A fold by 128 keeps the low 7 bits (R192). -/
theorem ofInt7_fold {x y : Int} (h : x = y - 128 ∨ x = y ∨ x = y + 128) : BitVec.ofInt 7 x = BitVec.ofInt 7 y := by
  apply BitVec.eq_of_toNat_eq
  simp only [BitVec.toNat_ofInt]
  omega

/-- The checked record of an exponent within one fold encodes, to the low 7 bits of that exponent. -/
theorem canonToAm_range {c : Canon} (h : c.isNormal = true) (hlow : -192 ≤ c.exponent + 1)
    (hhigh : c.exponent + 1 ≤ 191) : canonToAm (range c).1 =
      some ⟨c.mantissaLow.extractLsb' 0 8, c.mantissaLow.extractLsb' 8 8, c.mantissaHigh,
        BitVec.ofBool c.sign ++ BitVec.ofInt 7 (c.exponent + 1)⟩ := by
  unfold range canonToAm
  dsimp only
  split
  · rw [encodeRecord_mk h]
    · rw [ofInt7_fold (y := c.exponent + 1) (by omega)]
      rfl
    · omega
    · omega
  · split
    · rw [encodeRecord_mk h]
      · rw [ofInt7_fold (y := c.exponent + 1) (by omega)]
        rfl
      · omega
      · omega
    · rw [encodeRecord_inRange h]
      · rfl
      · omega
      · omega

/-- Settles O35. -/
theorem oneFoldKeepsTheLowSevenBits : Obligations.OneFoldKeepsTheLowSevenBits := by
  unfold Obligations.OneFoldKeepsTheLowSevenBits
  refine fun c h hlow hhigh => ⟨?_, canonToAm_range h hlow hhigh⟩
  unfold range
  dsimp only
  split
  · rfl
  · split <;> rfl

/-- A normal record within one fold is committed with its own bytes. -/
theorem encodeResult_isSome {c : Canon} (h : c.isNormal = true) (hlow : -192 ≤ c.exponent + 1)
    (hhigh : c.exponent + 1 ≤ 191) : (encodeResult c).1.isSome = true := by
  rw [encodeResult, if_pos h]
  dsimp only
  rw [canonToAm_range h hlow hhigh]
  rfl

/-! ### Rounding -/

theorem abs_eq_natAbs_div (r : ℚ) : |r| = (r.num.natAbs : ℚ) / r.den := by
  conv_lhs => rw [← Rat.num_div_den r, abs_div, Nat.abs_cast]
  rw [Nat.cast_natAbs, Int.cast_abs]

/-- Every non-zero rational has a binary exponent. -/
theorem exists_exponent {r : ℚ} (hr : r ≠ 0) : ∃ k : ℤ, (2 : ℚ) ^ k ≤ |r| ∧ |r| < (2 : ℚ) ^ (k + 1) := by
  rw [abs_eq_natAbs_div]
  exact ⟨_, binaryExponent_spec _ _ (by simpa using hr) r.den_ne_zero⟩

theorem binaryExponent_eq {r : ℚ} {k : ℤ} (h1 : (2 : ℚ) ^ k ≤ |r|) (h2 : |r| < (2 : ℚ) ^ (k + 1)) :
    binaryExponent r.num.natAbs r.den = k := by
  have habs := abs_eq_natAbs_div r
  have hpos : r.num.natAbs ≠ 0 := by
    intro h0
    rw [habs, h0, Nat.cast_zero, zero_div] at h1
    exact absurd h1 (not_le.2 (by positivity))
  obtain ⟨h3, h4⟩ := binaryExponent_spec _ _ hpos r.den_ne_zero
  rw [← habs] at h3 h4
  exact exponent_unique |r| _ k h1 h2 h3 h4

/-- The explicit leading one, on the 24-bit mantissa (R270). -/
theorem Canon.isNormal_iff (c : Canon) : c.isNormal = true ↔ 2 ^ 23 ≤ c.mantissa.toNat := by
  rw [Canon.isNormal, ← byte_msb, ← append_msb (by decide) c.mantissaHigh c.mantissaLow,
    BitVec.msb_eq_true_iff_two_mul_ge]
  change 2 ^ 24 ≤ 2 * c.mantissa.toNat ↔ _
  omega

/-- `normalise` field by field, for every choice of `FRound` (R191): `M` is the mantissa. -/
theorem normalise_spec {r : ℚ} {k : ℤ} (h1 : (2 : ℚ) ^ k ≤ |r|) (h2 : |r| < (2 : ℚ) ^ (k + 1)) :
    (normalise r).isNormal = true ∧ (normalise r).sign = decide (r < 0) ∧
    ((normalise r).exponent = k ∨ (normalise r).exponent = k + 1) ∧
    ∃ m : ℚ, (normalise r).val = (if r < 0 then -m else m) ∧ (∃ n : ℕ, m = n * (2 : ℚ) ^ (k - 23)) ∧
      abs (m - |r|) < (2 : ℚ) ^ (k - 23) ∧ ((∃ n : ℤ, |r| = n * (2 : ℚ) ^ (k - 23)) → m = |r|) := by
  obtain ⟨M, hM, hlow, hhigh, hclose, hexact, hexp⟩ := round24_spec (decide (r < 0)) |r| k h1 h2
  obtain ⟨rounded, hrounded⟩ : ∃ p, p = round24 (decide (r < 0)) |r| k := ⟨_, rfl⟩
  rw [← hrounded] at hM hclose hexact hexp
  have hnorm : normalise r = ⟨decide (r < 0), rounded.2, rounded.1.extractLsb' 16 8, rounded.1.extractLsb' 0 16⟩ := by
    rw [normalise, binaryExponent_eq h1 h2, hrounded]
  have hmantissa : (normalise r).mantissa.toNat = M := by
    rw [hnorm, Canon.mantissa, ← hM]
    exact congrArg BitVec.toNat ((extract_join (m := 8) (n := 16) rounded.1 0).trans (by simp))
  have hnormal : (normalise r).isNormal = true := (Canon.isNormal_iff _).2 (hmantissa ▸ hlow)
  refine ⟨hnormal, by rw [hnorm], by rw [hnorm]; exact hexp, (M : ℚ) * (2 : ℚ) ^ (rounded.2 - 23), ?_, ?_, hclose,
    hexact⟩
  · rw [Canon.val_eq, if_pos hnormal, hmantissa, hnorm]
    by_cases hr : r < 0 <;> simp [hr]
  · rcases hexp with he | he
    · exact ⟨M, by rw [he]⟩
    · refine ⟨2 * M, ?_⟩
      rw [he, show k + 1 - 23 = (k - 23) + 1 by ring, zpow_add_one₀ (by norm_num)]
      push_cast
      ring

theorem normalise_sign_mul {r m : ℚ} : (if r < 0 then -m else m) - r = (if r < 0 then -1 else 1) * (m - |r|) := by
  split
  next h => rw [abs_of_neg h]; ring
  next h => rw [abs_of_nonneg (not_lt.1 h)]; ring

/-- Settles O36. -/
theorem normaliseIsFaithful : Obligations.NormaliseIsFaithful := by
  unfold Obligations.NormaliseIsFaithful
  intro r k h1 h2
  obtain ⟨hnormal, hsign, _, m, hval, ⟨n, hn⟩, hclose, hexact⟩ := normalise_spec h1 h2
  have hdiff : (normalise r).val - r = (if r < 0 then -1 else 1) * (m - |r|) := by rw [hval, normalise_sign_mul]
  refine ⟨hnormal, by rw [hsign, decide_eq_true_iff], ?_, ?_, ?_⟩
  · rw [hval, hn]
    split
    · exact ⟨-n, by push_cast; ring⟩
    · exact ⟨n, by push_cast; ring⟩
  · rw [hdiff, abs_mul]
    split <;> simpa using hclose
  · rintro ⟨j, hj⟩
    have habs : |r| = ((|j| : ℤ) : ℚ) * (2 : ℚ) ^ (k - 23) := by
      rw [hj, abs_mul, abs_of_pos (by positivity : (0 : ℚ) < 2 ^ (k - 23))]
      push_cast
      rfl
    rw [← sub_eq_zero, hdiff, hexact ⟨_, habs⟩, sub_self, mul_zero]

/-! ### One fold suffices for the arithmetic -/

/-- A result whose magnitude lies within one fold of the range encodes, whatever `FRound`. -/
theorem encodeResult_recordOf_isSome {r : ℚ} (hlow : r ≠ 0 → (2 : ℚ) ^ (-193 : ℤ) ≤ |r|)
    (hhigh : |r| < (2 : ℚ) ^ (190 : ℤ)) : (encodeResult (recordOf r)).1.isSome = true := by
  unfold recordOf
  split
  · rfl
  next hr =>
    obtain ⟨k, h1, h2⟩ := exists_exponent hr
    have hk : -193 < k + 1 :=
      (zpow_lt_zpow_iff_right₀ (by norm_num : (1 : ℚ) < 2)).1 ((hlow hr).trans_lt h2)
    have hk' : k < 190 := (zpow_lt_zpow_iff_right₀ (by norm_num : (1 : ℚ) < 2)).1 (h1.trans_lt hhigh)
    obtain ⟨hnormal, _, hexp, _⟩ := normalise_spec h1 h2
    exact encodeResult_isSome hnormal (by omega) (by omega)

/-- The magnitude of a normal record lies in the binade of its exponent. -/
theorem Canon.abs_val {c : Canon} (h : c.isNormal = true) :
    (2 : ℚ) ^ c.exponent ≤ |c.val| ∧ |c.val| < (2 : ℚ) ^ (c.exponent + 1) := by
  have habs : |c.val| = (c.mantissa.toNat : ℚ) * (2 : ℚ) ^ (c.exponent - 23) := by
    rw [Canon.val_eq, if_pos h, abs_mul, abs_of_nonneg (by positivity : (0 : ℚ) ≤ c.mantissa.toNat * _)]
    cases c.sign <;> simp
  have hlow : ((2 ^ 23 : ℕ) : ℚ) ≤ c.mantissa.toNat := by exact_mod_cast (Canon.isNormal_iff c).1 h
  have hhigh : (c.mantissa.toNat : ℚ) < ((2 ^ 24 : ℕ) : ℚ) := by exact_mod_cast c.mantissa.isLt
  have hpow (n : ℕ) : ((2 ^ n : ℕ) : ℚ) * (2 : ℚ) ^ (c.exponent - 23) = (2 : ℚ) ^ (c.exponent - 23 + n) := by
    rw [zpow_add₀ (by norm_num), zpow_natCast, mul_comm]
    push_cast
    rfl
  have hunit : (0 : ℚ) < (2 : ℚ) ^ (c.exponent - 23) := by positivity
  rw [habs]
  constructor
  · calc (2 : ℚ) ^ c.exponent = ((2 ^ 23 : ℕ) : ℚ) * (2 : ℚ) ^ (c.exponent - 23) := by rw [hpow]; congr 1; omega
      _ ≤ _ := mul_le_mul_of_nonneg_right hlow hunit.le
  · calc _ < ((2 ^ 24 : ℕ) : ℚ) * (2 : ℚ) ^ (c.exponent - 23) := mul_lt_mul_of_pos_right hhigh hunit
      _ = (2 : ℚ) ^ (c.exponent + 1) := by rw [hpow]; congr 1; omega

/-- A wire float that is not 0 has its exponent in `-65 .. 62` (R272). -/
theorem amToCanon_exponent {w : Wire} (h : (amToCanon w).isNormal = true) :
    -65 ≤ (amToCanon w).exponent ∧ (amToCanon w).exponent ≤ 62 := by
  have hlow := (w.b3.extractLsb' 0 7).le_toInt
  have hhigh := (w.b3.extractLsb' 0 7).toInt_lt
  rw [amToCanon_isNormal] at h
  rw [amToCanon_normal h]
  constructor <;> dsimp only <;> omega

/-- A wire float is 0 or lies between `2^-65` and `2^63` in magnitude (R272). -/
theorem amToCanon_val_bounds (w : Wire) : ((amToCanon w).val ≠ 0 → (2 : ℚ) ^ (-65 : ℤ) ≤ |(amToCanon w).val|) ∧
    |(amToCanon w).val| < (2 : ℚ) ^ (63 : ℤ) := by
  cases h : (amToCanon w).isNormal
  · have hzero : (amToCanon w).val = 0 := amToCanon_val_zero ((amToCanon_isNormal w).symm.trans h)
    rw [hzero]
    norm_num
  · obtain ⟨hlow, hhigh⟩ := amToCanon_exponent h
    obtain ⟨h1, h2⟩ := Canon.abs_val h
    exact ⟨fun _ => (zpow_le_zpow_right₀ (by norm_num) hlow).trans h1,
      h2.trans_le (zpow_le_zpow_right₀ (by norm_num) (by omega))⟩

/-- Every wire float is a multiple of the least unit, `2^-88`. -/
theorem amToCanon_val_multiple (w : Wire) : ∃ n : ℤ, (amToCanon w).val = n * (2 : ℚ) ^ (-88 : ℤ) := by
  cases h : (amToCanon w).isNormal
  · exact ⟨0, by rw [amToCanon_val_zero ((amToCanon_isNormal w).symm.trans h)]; simp⟩
  · obtain ⟨hlow, _⟩ := amToCanon_exponent h
    obtain ⟨n, hn⟩ := Int.eq_ofNat_of_zero_le (show 0 ≤ (amToCanon w).exponent + 65 by omega)
    have hexp : (amToCanon w).exponent - 23 = (n : ℤ) + -88 := by omega
    rw [Canon.val_eq, if_pos h, hexp, zpow_add₀ (by norm_num), zpow_natCast]
    refine ⟨(if (amToCanon w).sign then -1 else 1) * ((amToCanon w).mantissa.toNat * 2 ^ n), ?_⟩
    push_cast
    ring

/-- A sum of multiples of a unit that is not 0 is no smaller than the unit. -/
theorem unit_le_abs {u r : ℚ} (hu : 0 < u) (hr : ∃ n : ℤ, r = n * u) (hne : r ≠ 0) : u ≤ |r| := by
  obtain ⟨n, rfl⟩ := hr
  have hn : n ≠ 0 := by
    rintro rfl
    simp at hne
  rw [abs_mul, abs_of_pos hu]
  exact le_mul_of_one_le_left hu.le (by exact_mod_cast Int.one_le_abs hn)

theorem encodes_of_sum {r x y : ℚ} (hr : |r| ≤ |x| + |y|) (hx : |x| < (2 : ℚ) ^ (63 : ℤ))
    (hy : |y| < (2 : ℚ) ^ (63 : ℤ)) (hmul : ∃ n : ℤ, r = n * (2 : ℚ) ^ (-88 : ℤ)) : (encodeResult (recordOf r)).1.isSome = true := by
  refine encodeResult_recordOf_isSome (fun hne => ?_) ?_
  · exact (zpow_le_zpow_right₀ (by norm_num) (by norm_num)).trans (unit_le_abs (by positivity) hmul hne)
  · calc |r| ≤ |x| + |y| := hr
      _ < (2 : ℚ) ^ (63 : ℤ) + (2 : ℚ) ^ (63 : ℤ) := add_lt_add hx hy
      _ < (2 : ℚ) ^ (190 : ℤ) := by norm_num

/-- Settles O37: sums are multiples of `2^-88`, products and quotients have the exponents of their factors. -/
theorem oneFoldSufficesForArithmetic : Obligations.OneFoldSufficesForArithmetic := by
  unfold Obligations.OneFoldSufficesForArithmetic
  intro u v b a
  obtain ⟨hblow, hbhigh⟩ := amToCanon_val_bounds u
  obtain ⟨halow, hahigh⟩ := amToCanon_val_bounds v
  obtain ⟨n, hn⟩ : ∃ n : ℤ, b = n * (2 : ℚ) ^ (-88 : ℤ) := amToCanon_val_multiple u
  obtain ⟨m, hm⟩ : ∃ m : ℤ, a = m * (2 : ℚ) ^ (-88 : ℤ) := amToCanon_val_multiple v
  refine ⟨?_, ?_, ?_, fun ha => ?_⟩
  · exact encodes_of_sum (abs_add_le b a) hbhigh hahigh ⟨n + m, by rw [hn, hm]; push_cast; ring⟩
  · exact encodes_of_sum (abs_sub b a) hbhigh hahigh ⟨n - m, by rw [hn, hm]; push_cast; ring⟩
  · refine encodeResult_recordOf_isSome (fun hne => ?_) ?_
    · obtain ⟨hb, ha⟩ := mul_ne_zero_iff.1 hne
      rw [abs_mul]
      calc (2 : ℚ) ^ (-193 : ℤ) ≤ (2 : ℚ) ^ (-65 : ℤ) * (2 : ℚ) ^ (-65 : ℤ) := by norm_num
        _ ≤ |b| * |a| := mul_le_mul (hblow hb) (halow ha) (by positivity) (abs_nonneg b)
    · rw [abs_mul]
      calc |b| * |a| < (2 : ℚ) ^ (63 : ℤ) * (2 : ℚ) ^ (63 : ℤ) :=
            mul_lt_mul'' hbhigh hahigh (abs_nonneg b) (abs_nonneg a)
        _ < (2 : ℚ) ^ (190 : ℤ) := by norm_num
  · have hapos : 0 < |a| := abs_pos.2 ha
    refine encodeResult_recordOf_isSome (fun hne => ?_) ?_
    · have hb : b ≠ 0 := fun hb => hne (by rw [hb, zero_div])
      rw [abs_div, le_div_iff₀ hapos]
      calc (2 : ℚ) ^ (-193 : ℤ) * |a| ≤ (2 : ℚ) ^ (-193 : ℤ) * (2 : ℚ) ^ (63 : ℤ) := by gcongr
        _ ≤ (2 : ℚ) ^ (-65 : ℤ) := by norm_num
        _ ≤ |b| := hblow hb
    · rw [abs_div, div_lt_iff₀ hapos]
      calc |b| < (2 : ℚ) ^ (63 : ℤ) := hbhigh
        _ < (2 : ℚ) ^ (190 : ℤ) * (2 : ℚ) ^ (-65 : ℤ) := by norm_num
        _ ≤ (2 : ℚ) ^ (190 : ℤ) * |a| := by gcongr; exact halow ha

/-! ### Integers and records -/

theorem zpow_lt_imp {j k : ℤ} (h : (2 : ℚ) ^ j < (2 : ℚ) ^ k) : j < k :=
  (zpow_lt_zpow_iff_right₀ (by norm_num)).1 h

/-- Settles O38: below `2^24` the unit of the mantissa divides 1, so the integer is a multiple of it. -/
theorem smallIntegersConvertExactly : Obligations.SmallIntegersConvertExactly := by
  unfold Obligations.SmallIntegersConvertExactly
  intro v hv
  unfold intToCanon recordOf
  split
  next h0 => rw [h0]; decide
  next hne =>
    obtain ⟨k, h1, h2⟩ := exists_exponent hne
    have hv' : |(v : ℚ)| < (2 : ℚ) ^ (24 : ℤ) := by exact_mod_cast hv
    have hk : k < 24 := zpow_lt_imp (h1.trans_lt hv')
    obtain ⟨n, hn⟩ := Int.eq_ofNat_of_zero_le (show 0 ≤ 23 - k by omega)
    obtain ⟨_, _, _, _, hexact⟩ := normaliseIsFaithful v k h1 h2
    refine hexact ⟨v * 2 ^ n, ?_⟩
    rw [show k - 23 = -(n : ℤ) by omega]
    push_cast
    rw [mul_assoc, ← zpow_natCast, ← zpow_add₀ (by norm_num), add_neg_cancel, zpow_zero, mul_one]

/-- The magnitude of the truncated integer is the floor of the value's (R155). -/
theorem abs_fixRound (r : ℚ) : |(fixRound r : ℚ)| = (⌊|r|⌋₊ : ℚ) := by
  rw [abs_eq_natAbs_div r, Nat.floor_div_eq_div, fixRound, ← Int.cast_abs, Int.abs_eq_natAbs, Int.natAbs_tdiv,
    Int.natAbs_natCast]
  norm_cast

theorem fixRound_neg (r : ℚ) : fixRound (-r) = -fixRound r := by simp [fixRound, Int.neg_tdiv]

theorem fixRound_nonneg {r : ℚ} (h : 0 ≤ r) : 0 ≤ fixRound r :=
  Int.tdiv_nonneg (Rat.num_nonneg.2 h) (by positivity)

theorem fixRound_nonpos {r : ℚ} (h : r ≤ 0) : fixRound r ≤ 0 := by
  have hneg := fixRound_nonneg (neg_nonneg.2 h)
  rw [fixRound_neg] at hneg
  omega

/-- The truncated integer reaches a positive bound exactly when the value does. -/
theorem le_fixRound_iff {n : ℤ} (hn : 0 < n) (r : ℚ) : n ≤ fixRound r ↔ (n : ℚ) ≤ r := by
  rcases le_or_gt 0 r with hr | hr
  · have habs := abs_fixRound r
    rw [abs_of_nonneg hr, abs_of_nonneg (by exact_mod_cast fixRound_nonneg hr)] at habs
    obtain ⟨m, rfl⟩ := Int.eq_ofNat_of_zero_le hn.le
    have hfloor : fixRound r = (⌊r⌋₊ : ℤ) := by exact_mod_cast habs
    rw [hfloor, Int.cast_natCast, ← Nat.le_floor_iff hr]
    exact Int.ofNat_le
  · have hneg := fixRound_nonpos hr.le
    have hn' : (0 : ℚ) < n := by exact_mod_cast hn
    exact ⟨fun h => by omega, fun h => absurd (hn'.trans_le h) (not_lt.2 hr.le)⟩

/-- Settles O39: the range test on the truncated integer is the same test on the value, on either side of 0. -/
theorem fixingTruncatesAndRangeChecks : Obligations.FixingTruncatesAndRangeChecks := by
  unfold Obligations.FixingTruncatesAndRangeChecks
  intro c w hw
  have hbound : (0 : ℤ) < 2 ^ (w - 1) := by positivity
  have habs := abs_fixRound c.val
  unfold canonToInt
  dsimp only
  refine ⟨fun t ht => ?_, ?_⟩
  · split at ht
    · cases ht
    · cases ht
      refine ⟨by omega, by omega, ?_, ?_, ?_⟩
      · rw [habs]
        exact Nat.floor_le (abs_nonneg _)
      · rw [habs]
        exact Nat.lt_floor_add_one _
      · rcases le_total 0 c.val with hc | hc
        · exact mul_nonneg (by exact_mod_cast fixRound_nonneg hc) hc
        · exact mul_nonneg_of_nonpos_of_nonpos (by exact_mod_cast fixRound_nonpos hc) hc
  · have hhigh : (2 : ℤ) ^ (w - 1) - 1 < fixRound c.val ↔ (2 : ℚ) ^ (w - 1) ≤ c.val := by
      rw [Int.sub_one_lt_iff, le_fixRound_iff hbound]
      push_cast
      rfl
    have hlow : fixRound c.val < -(2 : ℤ) ^ (w - 1) ↔ c.val ≤ -(2 : ℚ) ^ (w - 1) - 1 := by
      have hneg := le_fixRound_iff (n := 2 ^ (w - 1) + 1) (by omega) (-c.val)
      rw [fixRound_neg] at hneg
      push_cast at hneg
      constructor
      · intro h
        linarith [hneg.1 (by omega)]
      · intro h
        have := hneg.2 (by linarith)
        omega
    rw [← hhigh, ← hlow]
    split
    next hout => exact iff_of_true rfl hout.symm
    next hin => exact iff_of_false (by simp) fun h => hin h.symm

end Sys2Proof.Machine
end

section
/-! SUPPORT. The float commands (44_float_arithmetic.md, 45_transcendental.md): each handler as one commit, one
rejection or one free outcome of the shared steps. -/

namespace Sys2Proof.Machine
open Sys2Proof

/-! ### The shared ends of the float handlers -/

theorem Entered.fcommit2_some {s u : State} {n : Nat} (h : Entered s u n) {c : Canon} {w : Wire} {e : ErrorCode}
    (hc : encodeResult c = (some w, e)) : ReplacesBoth s (u.fcommit2 c).epilogue w e n := by
  rw [State.fcommit2_some hc]
  exact h.finish_both w e

theorem Entered.fcommit1_some {s u : State} {n : Nat} (h : Entered s u n) {c : Canon} {w : Wire} {e : ErrorCode}
    (hc : encodeResult c = (some w, e)) : ReplacesTop s (u.fcommit1 c).epilogue w e n := by
  rw [State.fcommit1_some hc]
  exact h.finish_top w e

/-- A free outcome over both operands replaces them, or leaves the stack and its flags. -/
theorem Entered.openCommit2 {s u : State} {n : Nat} (h : Entered s u n) (o : OpenOutcome) (e : ErrorCode) :
    if o.commit then ReplacesBoth s (u.openCommit2 o e).epilogue o.result e n
    else Changes s (u.openCommit2 o e).epilogue 0 [] .f32 n ∧
      (u.openCommit2 o e).epilogue.status = floatStatus s.tosWire e := by
  rcases State.openCommit2_cases u o e with ⟨ho, hopen⟩ | ⟨ho, hopen⟩
  · rw [if_pos ho, hopen]
    exact h.finish_both o.result e
  · rw [if_neg (ne_true_of_eq_false ho), hopen]
    refine ⟨?_, ?_⟩
    · simp [Changes, h.x, h.sp, h.cls, h.draws, h.pending, h.returned]
    · rw [State.epilogue_status, State.raiseAndSz_status (by simp [h.status])]
      simp [floatStatus, finalStatus, State.zeroBelow, State.tosWire, h.status, h.cls, h.peek]

/-- The operands that stand as their own result: no code, the operand's flags. -/
theorem finish_stands (s : State) (c : OpClass) :
    LeavesOperand s ((s.prologue c).latch .f32).sz.epilogue .none :=
  ⟨by simp [Changes], finished_statusFloat rfl rfl⟩

theorem amToCanon_val_ne_zero {w : Wire} (h : w.b2.getLsbD 7 = true) : (amToCanon w).val ≠ 0 := by
  have hlow := (Canon.abs_val ((amToCanon_isNormal w).trans h)).1
  exact abs_pos.1 (lt_of_lt_of_le (by positivity) hlow)

/-! ### FADD, FSUB, FMUL, FDIV -/

theorem exec_fadd (sr : Bool) (cls : BitVec 2) (s : State) : exec (.fadd sr cls) s =
    .next (((s.prologue (classMap cls)).latch .f32).fcommit2 (recordOf (s.nosVal + s.tosVal))).epilogue := rfl

theorem exec_fsub (sr : Bool) (cls : BitVec 2) (s : State) : exec (.fsub sr cls) s =
    .next (((s.prologue (classMap cls)).latch .f32).fcommit2 (recordOf (s.nosVal - s.tosVal))).epilogue := rfl

theorem exec_fmul (sr : Bool) (cls : BitVec 2) (s : State) : exec (.fmul sr cls) s =
    .next (((s.prologue (classMap cls)).latch .f32).fcommit2 (recordOf (s.nosVal * s.tosVal))).epilogue := rfl

theorem exec_fdiv (sr : Bool) (cls : BitVec 2) (s : State) : exec (.fdiv sr cls) s =
    .next (if s.tosVal = 0 then ((((s.prologue (classMap cls)).latch .f32).moveSp (-4)).raise .div0).sz
      else ((s.prologue (classMap cls)).latch .f32).fcommit2 (recordOf (s.nosVal / s.tosVal))).epilogue := rfl

/-- A result that encodes, as the pair of bytes and code it is committed with. -/
theorem encodeResult_eq_some {c : Canon} (h : (encodeResult c).1.isSome = true) :
    ∃ w e, encodeResult c = (some w, e) := by
  obtain ⟨w, hw⟩ := Option.isSome_iff_exists.1 h
  exact ⟨w, (encodeResult c).2, Prod.ext hw rfl⟩

/-- Settles O55: one fold suffices for the three results, so each commit writes bytes. -/
theorem floatSumsAndProductsReplaceBoth : Obligations.FloatSumsAndProductsReplaceBoth := by
  unfold Obligations.FloatSumsAndProductsReplaceBoth
  intro sr cls s a b
  have hentered := entered_prologue s (classMap cls)
  obtain ⟨hadd, hsub, hmul, _⟩ := oneFoldSufficesForArithmetic s.nosWire s.tosWire
  obtain ⟨w₁, e₁, h₁⟩ := encodeResult_eq_some hadd
  obtain ⟨w₂, e₂, h₂⟩ := encodeResult_eq_some hsub
  obtain ⟨w₃, e₃, h₃⟩ := encodeResult_eq_some hmul
  exact ⟨⟨w₁, e₁, _, h₁, exec_fadd sr cls s, hentered.fcommit2_some h₁⟩,
    ⟨w₂, e₂, _, h₂, exec_fsub sr cls s, hentered.fcommit2_some h₂⟩,
    ⟨w₃, e₃, _, h₃, exec_fmul sr cls s, hentered.fcommit2_some h₃⟩⟩

/-- Settles O56. -/
theorem floatDivisionReplacesBothOrDropsZero : Obligations.FloatDivisionReplacesBothOrDropsZero := by
  unfold Obligations.FloatDivisionReplacesBothOrDropsZero
  intro sr cls s a b
  refine ⟨fun hb => ?_, fun hb => ?_⟩
  · have ha : s.tosVal ≠ 0 := amToCanon_val_ne_zero hb
    obtain ⟨_, _, _, hdiv⟩ := oneFoldSufficesForArithmetic s.nosWire s.tosWire
    obtain ⟨w, e, h⟩ := encodeResult_eq_some (hdiv ha)
    refine ⟨w, e, _, h, exec_fdiv sr cls s, ?_⟩
    rw [if_neg ha]
    exact (entered_prologue s (classMap cls)).fcommit2_some h
  · have ha : s.tosVal = 0 := amToCanon_val_zero hb
    refine ⟨_, exec_fdiv sr cls s, ?_⟩
    rw [if_pos ha]
    refine ⟨by simp [Changes], by simp [State.tosWire, State.nosWire], ?_⟩
    rw [finished_raise_status rfl]
    simp [floatStatus, State.zeroBelow, State.nosWire]

/-! ### The derived functions -/

section
variable (sr : Bool) (cls : BitVec 2) (s : State)

theorem exec_sqrt : exec (.sqrt sr cls) s =
    .next ((s.prologue (classMap cls)).derived .sqrt (fun a => decide (a < 0)) .neg).epilogue := rfl

theorem exec_sin : exec (.sin sr cls) s =
    .next ((s.prologue (classMap cls)).derived .sin (fun _ => false) .none).epilogue := rfl

theorem exec_cos : exec (.cos sr cls) s =
    .next ((s.prologue (classMap cls)).derived .cos (fun _ => false) .none).epilogue := rfl

theorem exec_atan : exec (.atan sr cls) s =
    .next ((s.prologue (classMap cls)).derived .atan (fun _ => false) .none).epilogue := rfl

theorem exec_asin : exec (.asin sr cls) s =
    .next ((s.prologue (classMap cls)).derived .asin (fun a => decide (1 < |a|)) .arg).epilogue := rfl

theorem exec_acos : exec (.acos sr cls) s =
    .next ((s.prologue (classMap cls)).derived .acos (fun a => decide (1 < |a|)) .arg).epilogue := rfl

theorem exec_exp : exec (.exp sr cls) s =
    .next ((s.prologue (classMap cls)).derived .exp (fun a => decide (expBound < |a|)) .arg).epilogue := rfl

theorem exec_ln : exec (.ln sr cls) s = .next ((s.prologue (classMap cls)).logarithm .ln).epilogue := rfl

theorem exec_log : exec (.log sr cls) s = .next ((s.prologue (classMap cls)).logarithm .log).epilogue := rfl

theorem exec_tan : exec (.tan sr cls) s =
    .next (if tanSmall s.tosVal then ((s.prologue (classMap cls)).latch .f32).sz
      else ((s.prologue (classMap cls)).latch .f32).fcommit1 (recordOf (Config.fn1 .tan s.tosVal))).epilogue := rfl

theorem exec_pwr : exec (.pwr sr cls) s = .next (s.prologue (classMap cls)).power.epilogue := rfl

end

theorem tanSmall_iff (a : ℚ) : tanSmall a = true ↔ |a| < 1 / 2 ^ 12 := by
  rw [tanSmall, decide_eq_true_iff, Rat.mkRat_eq_div]
  norm_num

/-- What `t` holds once a record `c` is committed over the operand at TOS: its bytes, or, where one fold is not
enough, free ones (R210, log entry 7). -/
def CommitsTop (s t : State) (c : Canon) : Prop :=
  match encodeResult c with
  | (some w, e) => ReplacesTop s t w e 0
  | (none, e) => ReplacesTop s t (Config.beyondFold s.draws).result e 1

theorem fcommit1_commits (s : State) (cl : OpClass) (c : Canon) :
    CommitsTop s (((s.prologue cl).latch .f32).fcommit1 c).epilogue c := by
  unfold CommitsTop
  rcases hc : encodeResult c with ⟨_ | w, e⟩
  · rw [State.fcommit1_none hc]
    exact (entered_draw s cl Config.beyondFold).finish_top _ e
  · exact (entered_prologue s cl).fcommit1_some hc

section
variable {s : State} {rejects : Rat → Bool} (cl : OpClass) (f : Fn1) (e : ErrorCode)

theorem derived_rejects (h : rejects s.tosVal = true) :
    LeavesOperand s ((s.prologue cl).derived f rejects e).epilogue e := by
  rw [show (s.prologue cl).derived f rejects e = ((s.prologue cl).latch .f32).reject e from if_pos h]
  exact finish_reject s cl e

theorem derived_computes (h : rejects s.tosVal = false) :
    CommitsTop s ((s.prologue cl).derived f rejects e).epilogue (recordOf (Config.fn1 f s.tosVal)) := by
  rw [show (s.prologue cl).derived f rejects e =
    ((s.prologue cl).latch .f32).fcommit1 (recordOf (Config.fn1 f s.tosVal)) from if_neg (ne_true_of_eq_false h)]
  exact fcommit1_commits s cl _

theorem logarithm_rejects (h : s.tosVal < 0) : LeavesOperand s ((s.prologue cl).logarithm f).epilogue .neg := by
  rw [show (s.prologue cl).logarithm f = ((s.prologue cl).latch .f32).reject .neg from if_pos h]
  exact finish_reject s cl .neg

theorem logarithm_zero (h : s.tosVal = 0) : ReplacesTop s ((s.prologue cl).logarithm f).epilogue
    (Config.logZero s.draws).result (Config.logZero s.draws).error 1 := by
  rw [show (s.prologue cl).logarithm f = (((s.prologue cl).latch .f32).draw Config.logZero).2.openCommit1
    (Config.logZero s.draws) (Config.logZero s.draws).error from (if_neg (not_lt.2 h.ge)).trans (if_pos h)]
  exact (entered_draw s cl Config.logZero).finish_top _ _

theorem logarithm_computes (h : 0 < s.tosVal) :
    CommitsTop s ((s.prologue cl).logarithm f).epilogue (recordOf (Config.fn1 f s.tosVal)) := by
  rw [show (s.prologue cl).logarithm f = ((s.prologue cl).latch .f32).fcommit1 (recordOf (Config.fn1 f s.tosVal))
    from (if_neg (not_lt.2 h.le)).trans (if_neg h.ne')]
  exact fcommit1_commits s cl _

end

/-- Settles O57: each command rejects by its own check, TAN lets the operand stand. -/
theorem domainChecksRejectInPlace : Obligations.DomainChecksRejectInPlace := by
  unfold Obligations.DomainChecksRejectInPlace
  intro sr cls s a
  refine ⟨fun h => ⟨⟨_, exec_sqrt .., derived_rejects _ _ _ (decide_eq_true h)⟩,
      ⟨_, exec_ln .., logarithm_rejects _ _ h⟩, ⟨_, exec_log .., logarithm_rejects _ _ h⟩⟩,
    fun h => ⟨⟨_, exec_asin .., derived_rejects _ _ _ (decide_eq_true h)⟩,
      ⟨_, exec_acos .., derived_rejects _ _ _ (decide_eq_true h)⟩⟩,
    fun h => ⟨_, exec_exp .., derived_rejects _ _ _ (decide_eq_true h)⟩, fun h => ⟨_, exec_tan .., ?_⟩⟩
  rw [if_pos ((tanSmall_iff s.tosVal).2 h)]
  exact finish_stands s _

/-- Settles O58. -/
theorem derivedFunctionsReplaceTheTop : Obligations.DerivedFunctionsReplaceTheTop := by
  unfold Obligations.DerivedFunctionsReplaceTheTop
  intro sr cls s a computes
  refine ⟨fun h => ⟨_, exec_sqrt .., derived_computes _ _ _ (decide_eq_false (not_lt.2 h))⟩,
    ⟨_, exec_sin .., derived_computes _ _ _ rfl⟩, ⟨_, exec_cos .., derived_computes _ _ _ rfl⟩,
    ⟨_, exec_atan .., derived_computes _ _ _ rfl⟩, fun h => ⟨_, exec_tan .., ?_⟩,
    fun h => ⟨⟨_, exec_asin .., derived_computes _ _ _ (decide_eq_false (not_lt.2 h))⟩,
      ⟨_, exec_acos .., derived_computes _ _ _ (decide_eq_false (not_lt.2 h))⟩⟩,
    fun h => ⟨_, exec_exp .., derived_computes _ _ _ (decide_eq_false (not_lt.2 h))⟩,
    fun h => ⟨⟨_, exec_ln .., logarithm_computes _ _ h⟩, ⟨_, exec_log .., logarithm_computes _ _ h⟩⟩⟩
  rw [if_neg (mt (tanSmall_iff s.tosVal).1 (not_lt.2 h))]
  exact fcommit1_commits s _ _

/-! ### PWR -/

/-- What `t` holds once a record `c` is committed over both operands: its bytes, or, where one fold is not
enough, a free outcome (R193, log entry 7). -/
def CommitsBoth (s t : State) (c : Canon) : Prop :=
  match encodeResult c with
  | (some w, e) => ReplacesBoth s t w e 0
  | (none, e) => if (Config.beyondFold s.draws).commit then ReplacesBoth s t (Config.beyondFold s.draws).result e 1
      else Changes s t 0 [] .f32 1 ∧ t.status = floatStatus s.tosWire e

theorem fcommit2_commits (s : State) (cl : OpClass) (c : Canon) :
    CommitsBoth s (((s.prologue cl).latch .f32).fcommit2 c).epilogue c := by
  unfold CommitsBoth
  rcases hc : encodeResult c with ⟨_ | w, e⟩
  · rw [State.fcommit2_none hc]
    exact (entered_draw s cl Config.beyondFold).openCommit2 _ e
  · exact (entered_prologue s cl).fcommit2_some hc

section
variable {s : State} (cl : OpClass)

theorem power_rejects_base (h : s.nosVal < 0) : LeavesOperand s (s.prologue cl).power.epilogue .neg := by
  rw [show (s.prologue cl).power = ((s.prologue cl).latch .f32).reject .neg from if_pos h]
  exact finish_reject s cl .neg

theorem power_zero (h : s.nosVal = 0) : (s.prologue cl).power = (((s.prologue cl).latch .f32).draw
    Config.logZero).2.openCommit2 (Config.logZero s.draws) (Config.logZero s.draws).error :=
  (if_neg (not_lt.2 h.ge)).trans (if_pos h)

theorem power_rejects_product (h : 0 < s.nosVal) (hlarge : expBound < |Config.fn2 .pwrArg s.nosVal s.tosVal|) :
    LeavesOperand s (s.prologue cl).power.epilogue .arg := by
  rw [show (s.prologue cl).power = ((s.prologue cl).latch .f32).reject .arg
    from (if_neg (not_lt.2 h.le)).trans ((if_neg h.ne').trans (if_pos hlarge))]
  exact finish_reject s cl .arg

theorem power_computes (h : 0 < s.nosVal) (hsmall : ¬ expBound < |Config.fn2 .pwrArg s.nosVal s.tosVal|) :
    CommitsBoth s (s.prologue cl).power.epilogue (recordOf (Config.fn2 .pwr s.nosVal s.tosVal)) := by
  rw [show (s.prologue cl).power =
      ((s.prologue cl).latch .f32).fcommit2 (recordOf (Config.fn2 .pwr s.nosVal s.tosVal))
    from (if_neg (not_lt.2 h.le)).trans ((if_neg h.ne').trans (if_neg hsmall))]
  exact fcommit2_commits s cl _

end

/-- Settles O59. -/
theorem logarithmOfZeroIsFree : Obligations.LogarithmOfZeroIsFree := by
  unfold Obligations.LogarithmOfZeroIsFree
  intro sr cls s o
  refine ⟨fun hb => ?_, fun hb => ⟨_, exec_pwr .., ?_⟩⟩
  · have hzero : s.tosVal = 0 := amToCanon_val_zero hb
    exact ⟨⟨_, exec_ln .., logarithm_zero _ _ hzero⟩, ⟨_, exec_log .., logarithm_zero _ _ hzero⟩⟩
  · rw [power_zero _ (amToCanon_val_zero hb)]
    exact (entered_draw s _ Config.logZero).openCommit2 o o.error

/-- Settles O60. -/
theorem powerReplacesBothOrRejects : Obligations.PowerReplacesBothOrRejects := by
  unfold Obligations.PowerReplacesBothOrRejects
  intro sr cls s a b o
  refine ⟨fun h => ⟨_, exec_pwr .., power_rejects_base _ h⟩, fun h => ⟨_, exec_pwr .., ?_⟩⟩
  split
  next hlarge => exact power_rejects_product _ h hlarge
  next hsmall => exact power_computes _ h hsmall

end Sys2Proof.Machine
end

section
/-! SUPPORT. FLTS, FLTD, FIXS, FIXD (42_conversions.md): the float of an integer and its flags, the integer of a
float, and what each command leaves. -/

namespace Sys2Proof.Machine
open Sys2Proof

/-! ### The float of an integer -/

/-- The record of a non-zero integer of 32 bits is normal, of the integer's sign, within the AM9511 range. -/
theorem intToCanon_normal {v : ℤ} (hne : v ≠ 0) (hv : |v| ≤ 2 ^ 31) : (intToCanon v).isNormal = true ∧
    (intToCanon v).sign = decide (v < 0) ∧ -65 ≤ (intToCanon v).exponent ∧ (intToCanon v).exponent ≤ 62 := by
  have hne' : (v : ℚ) ≠ 0 := by exact_mod_cast hne
  have hone : (2 : ℚ) ^ (0 : ℤ) ≤ |(v : ℚ)| := by
    rw [zpow_zero]
    exact_mod_cast Int.one_le_abs hne
  have htop : |(v : ℚ)| < (2 : ℚ) ^ (32 : ℤ) := lt_of_le_of_lt (by exact_mod_cast hv) (by norm_num : (2 : ℚ) ^ 31 < _)
  obtain ⟨k, h1, h2⟩ := exists_exponent hne'
  have hlow := zpow_lt_imp (hone.trans_lt h2)
  have hhigh := zpow_lt_imp (h1.trans_lt htop)
  obtain ⟨hnormal, hsign, hexp, _⟩ := normalise_spec h1 h2
  rw [intToCanon, recordOf, if_neg hne']
  refine ⟨hnormal, hsign.trans ?_, by omega, by omega⟩
  rw [decide_eq_decide]
  exact_mod_cast Iff.rfl

/-- The wire float of an integer of 32 bits: it reads back as the integer's record, its sign bit is the integer's
and its leading mantissa bit says that it is not 0. -/
theorem intToCanon_encodes {v : ℤ} (hv : |v| ≤ 2 ^ 31) : ∃ w, canonToAm (intToCanon v) = some w ∧
    amToCanon w = intToCanon v ∧ w.b3.getLsbD 7 = decide (v < 0) ∧ w.b2.getLsbD 7 = !decide (v = 0) := by
  by_cases hne : v = 0
  · subst hne
    exact ⟨Wire.zero, by decide, by decide, by decide, by decide⟩
  · obtain ⟨hnormal, hsign, hlow, hhigh⟩ := intToCanon_normal hne hv
    obtain ⟨w, hw, hback⟩ := amToCanon_canonToAm hnormal hlow hhigh
    have hb2 : w.b2.getLsbD 7 = true := by rw [← amToCanon_isNormal, hback, hnormal]
    refine ⟨w, hw, hback, ?_, by simpa [hne] using hb2⟩
    rw [← hsign, ← hback, amToCanon_normal hb2]

theorem toInt_eq_zero_iff {w : Nat} (v : BitVec w) : v.toInt = 0 ↔ v = 0 := by
  rw [← BitVec.toInt_inj]
  simp

/-- The flags of an integer's float are those of the integer. -/
theorem floatStatus_of_int {n : Nat} {w : Wire} {v : BitVec n} (hsign : w.b3.getLsbD 7 = decide (v.toInt < 0))
    (hzero : w.b2.getLsbD 7 = !decide (v.toInt = 0)) :
    floatStatus w .none = finalStatus v.msb (v == 0) .none false := by
  rw [floatStatus, hsign, hzero, Bool.not_not, BitVec.msb_eq_toInt, beq_eq_decide]
  simp only [toInt_eq_zero_iff]

/-! ### FLTS and FLTD -/

theorem State.pushRecord_some {c : Canon} {w : Wire} (h : canonToAm c = some w) (s : State) :
    s.pushRecord c = s.pushWire w := by
  simp [State.pushRecord, h]

/-- A 16-bit operand popped, a float pushed (R150). -/
theorem finish_flts (s : State) (c : OpClass) (w : Wire) :
    let t := ((((s.prologue c).moveSp (-2)).pushWire w).latch .f32).sz.epilogue
    Changes s t 2 [-2, -1, 0, 1] .f32 0 ∧ t.tosWire = w ∧ t.status = floatStatus w .none := by
  have htos : ((((s.prologue c).moveSp (-2)).pushWire w).latch .f32).tosWire = w := by
    simp [State.tosWire, State.pushWire_eq]
  refine ⟨changes_finished ?_, htos, by rw [finished_statusFloat (by simp) rfl, htos]⟩
  simp +contextual [Changes, State.pushWire_eq, Memory.read_write]

/-- A 32-bit operand popped, a float pushed (R151). -/
theorem finish_fltd (s : State) (c : OpClass) (w : Wire) :
    let t := ((((s.prologue c).moveSp (-4)).pushWire w).latch .f32).sz.epilogue
    Changes s t 0 [-4, -3, -2, -1] .f32 0 ∧ t.tosWire = w ∧ t.status = floatStatus w .none := by
  have htos : ((((s.prologue c).moveSp (-4)).pushWire w).latch .f32).tosWire = w := by
    simp [State.tosWire, State.pushWire_eq]
  refine ⟨changes_finished ?_, htos, by rw [finished_statusFloat (by simp) rfl, htos]⟩
  simp +contextual [Changes, State.pushWire_eq, Memory.read_write]

theorem exec_flts (sr : Bool) (cls : BitVec 2) (s : State) : exec (.flts sr cls) s =
    .next ((((s.prologue (classMap cls)).moveSp (-2)).pushRecord (intToCanon s.tos16.toInt)).latch .f32).sz.epilogue :=
  rfl

theorem exec_fltd (sr : Bool) (cls : BitVec 2) (s : State) : exec (.fltd sr cls) s =
    .next ((((s.prologue (classMap cls)).moveSp (-4)).pushRecord (intToCanon s.tos32.toInt)).latch .f32).sz.epilogue :=
  rfl

/-- Settles O47. -/
theorem floatingAnIntegerPushesItsFloat : Obligations.FloatingAnIntegerPushesItsFloat := by
  refine ⟨fun sr cls s => ?_, fun sr cls s => ?_⟩
  · have hbound : |s.tos16.toInt| ≤ 2 ^ 15 := abs_toInt_le s.tos16
    obtain ⟨w, hw, hback, hsign, hzero⟩ := intToCanon_encodes (hbound.trans (by norm_num))
    have hexec := exec_flts sr cls s
    rw [State.pushRecord_some hw] at hexec
    refine ⟨w, _, hexec, hw, ?_, ?_⟩
    · rw [hback]
      exact smallIntegersConvertExactly _ (hbound.trans_lt (by norm_num))
    · rw [← floatStatus_of_int hsign hzero]
      exact finish_flts s _ w
  · obtain ⟨w, hw, hback, hsign, hzero⟩ := intToCanon_encodes (abs_toInt_le s.tos32)
    have hexec := exec_fltd sr cls s
    rw [State.pushRecord_some hw] at hexec
    refine ⟨w, _, hexec, hw, ?_⟩
    rw [← floatStatus_of_int hsign hzero]
    exact finish_fltd s _ w

/-! ### FIXS and FIXD -/

theorem exec_fixs_some (sr : Bool) (cls : BitVec 2) {s : State} {v : ℤ}
    (h : canonToInt (amToCanon s.tosWire) 16 = some v) : exec (.fixs sr cls) s =
    .next (((((s.prologue (classMap cls)).latch .f32).moveSp (-4)).push16
      (BitVec.ofInt 16 v)).latch .i16).sz.epilogue := by
  unfold exec execFixs
  simp [runCommand, h]

theorem exec_fixs_none (sr : Bool) (cls : BitVec 2) {s : State} (h : canonToInt (amToCanon s.tosWire) 16 = none) :
    exec (.fixs sr cls) s = .next (((s.prologue (classMap cls)).latch .f32).reject .ovf).epilogue := by
  unfold exec execFixs
  simp [runCommand, h, State.reject]

theorem exec_fixd_some (sr : Bool) (cls : BitVec 2) {s : State} {v : ℤ}
    (h : canonToInt (amToCanon s.tosWire) 32 = some v) : exec (.fixd sr cls) s =
    .next (((((s.prologue (classMap cls)).latch .f32).moveSp (-4)).pushWire
      (wireOf32 (BitVec.ofInt 32 v))).latch .i32).sz.epilogue := by
  unfold exec execFixd
  simp [runCommand, h]

theorem exec_fixd_none (sr : Bool) (cls : BitVec 2) {s : State} (h : canonToInt (amToCanon s.tosWire) 32 = none) :
    exec (.fixd sr cls) s = .next (((s.prologue (classMap cls)).latch .f32).reject .ovf).epilogue := by
  unfold exec execFixd
  simp [runCommand, h, State.reject]

/-- A float popped, a 16-bit integer pushed (R152). -/
theorem finish_fixs (s : State) (c : OpClass) (r : Word16) :
    let t := (((((s.prologue c).latch .f32).moveSp (-4)).push16 r).latch .i16).sz.epilogue
    Changes s t (-2) [-4, -3] .i16 0 ∧ t.tos16 = r ∧ t.status = finalStatus r.msb (r == 0) .none false := by
  have htos : (((((s.prologue c).latch .f32).moveSp (-4)).push16 r).latch .i16).tos16 = r := by
    simp [State.tos16, State.push16_eq]
  refine ⟨changes_finished ?_, htos, by rw [finished_status16 (by simp) rfl, htos]⟩
  simp +contextual [Changes, State.push16_eq, Memory.read_write]

/-- A float popped, a 32-bit integer pushed (R153). -/
theorem finish_fixd (s : State) (c : OpClass) (r : Word32) :
    let t := (((((s.prologue c).latch .f32).moveSp (-4)).pushWire (wireOf32 r)).latch .i32).sz.epilogue
    Changes s t 0 [-4, -3, -2, -1] .i32 0 ∧ t.tos32 = r ∧ t.status = finalStatus r.msb (r == 0) .none false := by
  have htos : (((((s.prologue c).latch .f32).moveSp (-4)).pushWire (wireOf32 r)).latch .i32).tos32 = r := by
    simp [State.tos32, State.pushWire_eq, wireOf32]
  refine ⟨changes_finished ?_, htos, by rw [finished_status32 (by simp) rfl, htos]⟩
  simp +contextual [Changes, State.pushWire_eq, Memory.read_write]

/-- The integer a float is fixed to fits its width, so its pattern has it as signed value. -/
theorem canonToInt_toInt {c : Canon} {w : Nat} (hw : 0 < w) {v : ℤ} (h : canonToInt c w = some v) :
    (BitVec.ofInt w v).toInt = v := by
  obtain ⟨hlow, hhigh, _⟩ := (fixingTruncatesAndRangeChecks c w hw).1 v h
  exact BitVec.toInt_ofInt_eq_self hw hlow hhigh

theorem status_of_toInt {n : Nat} {r : BitVec n} {v : ℤ} (h : r.toInt = v) :
    finalStatus r.msb (r == 0) .none false = finalStatus (decide (v < 0)) (decide (v = 0)) .none false := by
  rw [BitVec.msb_eq_toInt, beq_eq_decide, ← h]
  simp only [toInt_eq_zero_iff]

/-- Settles O48. -/
theorem fixingAFloatPushesItsInteger : Obligations.FixingAFloatPushesItsInteger := by
  refine ⟨fun sr cls s => ?_, fun sr cls s => ?_⟩
  · cases h : canonToInt (amToCanon s.tosWire) 16 with
    | none => exact ⟨_, exec_fixs_none sr cls h, finish_reject s _ .ovf⟩
    | some v =>
      have hv := canonToInt_toInt (by decide) h
      obtain ⟨hchanges, htos, hstatus⟩ := finish_fixs s (classMap cls) (BitVec.ofInt 16 v)
      exact ⟨_, exec_fixs_some sr cls h, hchanges, (congrArg BitVec.toInt htos).trans hv,
        hstatus.trans (status_of_toInt hv)⟩
  · cases h : canonToInt (amToCanon s.tosWire) 32 with
    | none => exact ⟨_, exec_fixd_none sr cls h, finish_reject s _ .ovf⟩
    | some v =>
      have hv := canonToInt_toInt (by decide) h
      obtain ⟨hchanges, htos, hstatus⟩ := finish_fixd s (classMap cls) (BitVec.ofInt 32 v)
      exact ⟨_, exec_fixd_some sr cls h, hchanges, (congrArg BitVec.toInt htos).trans hv,
        hstatus.trans (status_of_toInt hv)⟩

end Sys2Proof.Machine
end
